-- ==== Sys2Proof/Word.lean ====
section
/-! DEFINITION. The byte and the fixed-length byte strings of the command interface and of the wire
(spec/00_scope.md R8, spec/30_encoding.md R63). A fixed-length field is a structure of named bytes, byte 0 first; a
field of variable length is a `List Byte`. Counters are the only numbers and are bit vectors of their width. -/

namespace Sys2Proof

/-- R8: a byte is 8 bits, bit 7 the most significant. -/
abbrev Byte := BitVec 8

/-- R8: `u16`. -/
abbrev U16 := BitVec 16

/-- R8: `u32`. -/
abbrev U32 := BitVec 32

/-- R63: the 2-byte field `b2` (a device nonce). -/
structure Bytes2 where
  b0 : Byte
  b1 : Byte
  deriving DecidableEq, Repr, Inhabited

/-- R63: the 3-byte field `b3` (a join nonce, a network id). -/
structure Bytes3 where
  b0 : Byte
  b1 : Byte
  b2 : Byte
  deriving DecidableEq, Repr, Inhabited

/-- R63: the 4-byte field `b4` (an address, a tag); also one column of the cipher's state array (R101) and one word
of the key expansion (R104). -/
structure Bytes4 where
  b0 : Byte
  b1 : Byte
  b2 : Byte
  b3 : Byte
  deriving DecidableEq, Repr, Inhabited

/-- R63: the 8-byte field `b8` (an application id, a device id). -/
structure Bytes8 where
  b0 : Byte
  b1 : Byte
  b2 : Byte
  b3 : Byte
  b4 : Byte
  b5 : Byte
  b6 : Byte
  b7 : Byte
  deriving DecidableEq, Repr, Inhabited

/-- R63, R101: a key or a block, 16 bytes, held as the four columns of the state array: byte `r + 4c` of the block is
byte `r` of column `c`, so column 0 holds bytes 0 to 3. -/
structure Block where
  c0 : Bytes4
  c1 : Bytes4
  c2 : Bytes4
  c3 : Bytes4
  deriving DecidableEq, Repr, Inhabited

end Sys2Proof
end

