-- ==== Sys2Proof/Machine/Bytes.lean ====
section
/-! DEFINITION. Byte strings, byte order and reversal (spec/00_scope.md R8, spec/20_memory.md R44, R46): the one place
where the order of the bytes of a number or of a field is decided. -/

namespace Sys2Proof

/-- R8: `zeros(n)`. -/
def zeros (n : Nat) : List Byte := List.replicate n 0

/-- R8, R40: the slice `B[i ..< j]`. -/
def slice (B : List Byte) (i j : Nat) : List Byte := (B.drop i).take (j - i)

/-- R8: byte `i` of a byte string. Every use stands behind the length check that makes the position exist. -/
def byteAt (B : List Byte) (i : Nat) : Byte := B.getD i 0

/-- R63: a `var` field, one length byte and then the bytes. -/
def varBytes (B : List Byte) : List Byte := BitVec.ofNat 8 B.length :: B

/-- R63: a `flag` field. -/
def flagByte (b : Bool) : Byte := if b then 0x01 else 0x00

/-- R8: `le16(v)`. -/
def le16 (v : U16) : List Byte := [v.extractLsb' 0 8, v.extractLsb' 8 8]

/-- R8: `le32(v)`. -/
def le32 (v : U32) : List Byte := [v.extractLsb' 0 8, v.extractLsb' 8 8, v.extractLsb' 16 8, v.extractLsb' 24 8]

/-- R8: `u16le(B)` of two bytes, the first being bits 7:0. -/
def u16le (x0 x1 : Byte) : U16 := x1 ++ x0

/-- R8: `u32le(B)` of four bytes, the first being bits 7:0. -/
def u32le (x0 x1 x2 x3 : Byte) : U32 := x3 ++ x2 ++ x1 ++ x0

/-- The bytes of a 2-byte field, byte 0 first. -/
def Bytes2.toList (v : Bytes2) : List Byte := [v.b0, v.b1]

/-- R8: `rev`. -/
def Bytes2.rev (v : Bytes2) : Bytes2 := ⟨v.b1, v.b0⟩

/-- The 2-byte field that a byte string begins with. -/
def Bytes2.ofBytes (B : List Byte) : Bytes2 := ⟨byteAt B 0, byteAt B 1⟩

/-- The bytes of a 3-byte field, byte 0 first. -/
def Bytes3.toList (v : Bytes3) : List Byte := [v.b0, v.b1, v.b2]

/-- R8: `rev`. -/
def Bytes3.rev (v : Bytes3) : Bytes3 := ⟨v.b2, v.b1, v.b0⟩

/-- The bytes of a 4-byte field, byte 0 first. -/
def Bytes4.toList (v : Bytes4) : List Byte := [v.b0, v.b1, v.b2, v.b3]

/-- R8: `rev`. -/
def Bytes4.rev (v : Bytes4) : Bytes4 := ⟨v.b3, v.b2, v.b1, v.b0⟩

/-- The 4-byte field that a byte string begins with. -/
def Bytes4.ofBytes (B : List Byte) : Bytes4 := ⟨byteAt B 0, byteAt B 1, byteAt B 2, byteAt B 3⟩

/-- R8: `xor` of two 4-byte strings. -/
def Bytes4.xor (v w : Bytes4) : Bytes4 := ⟨v.b0 ^^^ w.b0, v.b1 ^^^ w.b1, v.b2 ^^^ w.b2, v.b3 ^^^ w.b3⟩

/-- A function applied to each of 4 bytes. -/
def Bytes4.map (f : Byte → Byte) (v : Bytes4) : Bytes4 := ⟨f v.b0, f v.b1, f v.b2, f v.b3⟩

/-- The bytes of an 8-byte field, byte 0 first. -/
def Bytes8.toList (v : Bytes8) : List Byte := [v.b0, v.b1, v.b2, v.b3, v.b4, v.b5, v.b6, v.b7]

/-- R8: `rev`. -/
def Bytes8.rev (v : Bytes8) : Bytes8 := ⟨v.b7, v.b6, v.b5, v.b4, v.b3, v.b2, v.b1, v.b0⟩

/-- The 8-byte field that a byte string begins with. -/
def Bytes8.ofBytes (B : List Byte) : Bytes8 :=
  ⟨byteAt B 0, byteAt B 1, byteAt B 2, byteAt B 3, byteAt B 4, byteAt B 5, byteAt B 6, byteAt B 7⟩

/-- R101: the bytes of a block, column by column. -/
def Block.toList (b : Block) : List Byte := b.c0.toList ++ b.c1.toList ++ b.c2.toList ++ b.c3.toList

/-- The block that a byte string of 16 bytes is. -/
def Block.ofBytes (B : List Byte) : Block :=
  ⟨Bytes4.ofBytes B, Bytes4.ofBytes (B.drop 4), Bytes4.ofBytes (B.drop 8), Bytes4.ofBytes (B.drop 12)⟩

/-- R8: `xor` of two blocks. -/
def Block.xor (a b : Block) : Block := ⟨a.c0.xor b.c0, a.c1.xor b.c1, a.c2.xor b.c2, a.c3.xor b.c3⟩

/-- A function applied to each of the 16 bytes of a block. -/
def Block.map (f : Byte → Byte) (b : Block) : Block := ⟨b.c0.map f, b.c1.map f, b.c2.map f, b.c3.map f⟩

/-- R8: `zeros(16)` as a block. -/
def zeroBlock : Block := ⟨⟨0, 0, 0, 0⟩, ⟨0, 0, 0, 0⟩, ⟨0, 0, 0, 0⟩, ⟨0, 0, 0, 0⟩⟩

end Sys2Proof
end

