-- ==== Sys2Proof/Machine/Aes.lean ====
section
/-! DEFINITION. The AES-128 block cipher (spec/40_block_cipher.md R101 to R115). -/

namespace Sys2Proof.Machine

/-- R102: multiplication by x in GF(2^8). -/
def xtime (a : Byte) : Byte := if a.msb then (a <<< 1) ^^^ 0x1B else a <<< 1

/-- R102: one turn of the shift-and-add loop of `Gmul`, for bit `i` of the multiplier `b`, on the pair (r, a). -/
def gmulTurn (b : Byte) (ra : Byte × Byte) (i : Nat) : Byte × Byte :=
  (if b.getLsbD i then ra.1 ^^^ ra.2 else ra.1, xtime ra.2)

/-- R102: `Gmul(a, b)`. -/
def gmul (a b : Byte) : Byte := ([0, 1, 2, 3, 4, 5, 6, 7].foldl (gmulTurn b) (0, a)).1

/-- A byte table of 16 rows of 16 bytes, a row written as one number with column 0 leftmost: the entry in row
`a[7:4]`, column `a[3:0]`. -/
def tableEntry (rows : List (BitVec 128)) (a : Byte) : Byte :=
  ((rows.getD (a.toNat / 16) 0) >>> (8 * (15 - a.toNat % 16))).setWidth 8

/-- R103: the table of the S-box. -/
def sboxRows : List (BitVec 128) :=
  [0x637c777bf26b6fc53001672bfed7ab76, 0xca82c97dfa5947f0add4a2af9ca472c0,
   0xb7fd9326363ff7cc34a5e5f171d83115, 0x04c723c31896059a071280e2eb27b275,
   0x09832c1a1b6e5aa0523bd6b329e32f84, 0x53d100ed20fcb15b6acbbe394a4c58cf,
   0xd0efaafb434d338545f9027f503c9fa8, 0x51a3408f929d38f5bcb6da2110fff3d2,
   0xcd0c13ec5f974417c4a77e3d645d1973, 0x60814fdc222a908846eeb814de5e0bdb,
   0xe0323a0a4906245cc2d3ac629195e479, 0xe7c8376d8dd54ea96c56f4ea657aae08,
   0xba78252e1ca6b4c6e8dd741f4bbd8b8a, 0x703eb5664803f60e613557b986c11d9e,
   0xe1f8981169d98e949b1e87e9ce5528df, 0x8ca1890dbfe6426841992d0fb054bb16]

/-- R103: `Sbox`. -/
def sbox (a : Byte) : Byte := tableEntry sboxRows a

/-- R111: the table of the inverse S-box. -/
def invSboxRows : List (BitVec 128) :=
  [0x52096ad53036a538bf40a39e81f3d7fb, 0x7ce339829b2fff87348e4344c4dee9cb,
   0x547b9432a6c2233dee4c950b42fac34e, 0x082ea16628d924b2765ba2496d8bd125,
   0x72f8f66486689816d4a45ccc5d65b692, 0x6c704850fdedb9da5e154657a78d9d84,
   0x90d8ab008cbcd30af7e45805b8b34506, 0xd02c1e8fca3f0f02c1afbd0301138a6b,
   0x3a9111414f67dcea97f2cfcef0b4e673, 0x96ac7422e7ad3585e2f937e81c75df6e,
   0x47f11a711d29c5896fb7620eaa18be1b, 0xfc563e4bc6d279209adbc0fe78cd5af4,
   0x1fdda8338807c731b11210592780ec5f, 0x60517fa919b54a0d2de57a9f93c99cef,
   0xa0e03b4dae2af5b0c8ebbb3c83539961, 0x172b047eba77d626e169146355210c7d]

/-- R111: `InvSbox`. -/
def invSbox (a : Byte) : Byte := tableEntry invSboxRows a

/-- R104: `Rcon[1..10]`. -/
def rcons : List Byte := [0x01, 0x02, 0x04, 0x08, 0x10, 0x20, 0x40, 0x80, 0x1b, 0x36]

/-- R104: RotWord. -/
def rotWord (t : Bytes4) : Bytes4 := ⟨t.b1, t.b2, t.b3, t.b0⟩

/-- R104: SubWord. -/
def subWord (t : Bytes4) : Bytes4 := t.map sbox

/-- R104: what the previous word becomes at `i mod 4 == 0`: rotated, substituted, its first byte XORed with `Rcon`. -/
def keyCore (rcon : Byte) (t : Bytes4) : Bytes4 := (subWord (rotWord t)).xor ⟨rcon, 0, 0, 0⟩

/-- R104: the four words `w[4r] .. w[4r+3]` from the four before them. -/
def nextRoundKey (k : Block) (rcon : Byte) : Block :=
  let w0 := k.c0.xor (keyCore rcon k.c3)
  let w1 := k.c1.xor w0
  let w2 := k.c2.xor w1
  let w3 := k.c3.xor w2
  ⟨w0, w1, w2, w3⟩

/-- R104: a round key and those after it, one per constant of the list. -/
def expandKey (k : Block) : List Byte → List Block
  | [] => [k]
  | rc :: rest => k :: expandKey (nextRoundKey k rc) rest

/-- R104: `RK(0)` to `RK(10)`. -/
def roundKeys (key : Block) : List Block := expandKey key rcons

/-- R104: `RK(r)`. -/
def roundKey (key : Block) (r : Nat) : Block := (roundKeys key).getD r zeroBlock

/-- R105: AddRoundKey. -/
def addRoundKey (s rk : Block) : Block := s.xor rk

/-- R106: SubBytes. -/
def subBytes (s : Block) : Block := s.map sbox

/-- R112: InvSubBytes. -/
def invSubBytes (s : Block) : Block := s.map invSbox

/-- R107: ShiftRows, row r rotated left by r columns. -/
def shiftRows (s : Block) : Block :=
  ⟨⟨s.c0.b0, s.c1.b1, s.c2.b2, s.c3.b3⟩, ⟨s.c1.b0, s.c2.b1, s.c3.b2, s.c0.b3⟩,
   ⟨s.c2.b0, s.c3.b1, s.c0.b2, s.c1.b3⟩, ⟨s.c3.b0, s.c0.b1, s.c1.b2, s.c2.b3⟩⟩

/-- R113: InvShiftRows, row r rotated right by r columns. -/
def invShiftRows (s : Block) : Block :=
  ⟨⟨s.c0.b0, s.c3.b1, s.c2.b2, s.c1.b3⟩, ⟨s.c1.b0, s.c0.b1, s.c3.b2, s.c2.b3⟩,
   ⟨s.c2.b0, s.c1.b1, s.c0.b2, s.c3.b3⟩, ⟨s.c3.b0, s.c2.b1, s.c1.b2, s.c0.b3⟩⟩

/-- R108: MixColumns on one column. -/
def mixColumn (a : Bytes4) : Bytes4 :=
  ⟨gmul a.b0 2 ^^^ gmul a.b1 3 ^^^ a.b2 ^^^ a.b3,
   a.b0 ^^^ gmul a.b1 2 ^^^ gmul a.b2 3 ^^^ a.b3,
   a.b0 ^^^ a.b1 ^^^ gmul a.b2 2 ^^^ gmul a.b3 3,
   gmul a.b0 3 ^^^ a.b1 ^^^ a.b2 ^^^ gmul a.b3 2⟩

/-- R114: InvMixColumns on one column. -/
def invMixColumn (a : Bytes4) : Bytes4 :=
  ⟨gmul a.b0 14 ^^^ gmul a.b1 11 ^^^ gmul a.b2 13 ^^^ gmul a.b3 9,
   gmul a.b0 9 ^^^ gmul a.b1 14 ^^^ gmul a.b2 11 ^^^ gmul a.b3 13,
   gmul a.b0 13 ^^^ gmul a.b1 9 ^^^ gmul a.b2 14 ^^^ gmul a.b3 11,
   gmul a.b0 11 ^^^ gmul a.b1 13 ^^^ gmul a.b2 9 ^^^ gmul a.b3 14⟩

/-- R108: MixColumns. -/
def mixColumns (s : Block) : Block := ⟨mixColumn s.c0, mixColumn s.c1, mixColumn s.c2, mixColumn s.c3⟩

/-- R114: InvMixColumns. -/
def invMixColumns (s : Block) : Block :=
  ⟨invMixColumn s.c0, invMixColumn s.c1, invMixColumn s.c2, invMixColumn s.c3⟩

/-- R109: one of rounds 1 to 9. -/
def encRound (s rk : Block) : Block := addRoundKey (mixColumns (shiftRows (subBytes s))) rk

/-- R109: round 10, without MixColumns. -/
def encLastRound (s rk : Block) : Block := addRoundKey (shiftRows (subBytes s)) rk

/-- R109: the rounds after the first AddRoundKey, in the order of the round keys; the last key's is the last round. -/
def encRounds (s : Block) : List Block → Block
  | [] => s
  | [rk] => encLastRound s rk
  | rk :: rk' :: rest => encRounds (encRound s rk) (rk' :: rest)

/-- R109: `AesEnc(key, blk)`. -/
def aesEnc (key blk : Block) : Block :=
  encRounds (addRoundKey blk (roundKey key 0)) (roundKeys key).tail

/-- R115: one turn of the loop for r = 9 down to 1. -/
def decRound (s rk : Block) : Block := invMixColumns (addRoundKey (invSubBytes (invShiftRows s)) rk)

/-- R115: the final step, with `RK(0)` and without InvMixColumns. -/
def decLastRound (s rk : Block) : Block := addRoundKey (invSubBytes (invShiftRows s)) rk

/-- R115: the rounds after the first AddRoundKey, in the order of the round keys given. -/
def decRounds (s : Block) : List Block → Block
  | [] => s
  | [rk] => decLastRound s rk
  | rk :: rk' :: rest => decRounds (decRound s rk) (rk' :: rest)

/-- R115: `AesDec(key, blk)`, the round keys in the opposite order. -/
def aesDec (key blk : Block) : Block :=
  decRounds (addRoundKey blk (roundKey key 10)) (roundKeys key).reverse.tail

end Sys2Proof.Machine
end

