-- ==== Sys2Proof/Machine/Params.lean ====
section
/-! DEFINITION. The constants that the spec fixes (spec/00_scope.md R5, R6) or decides (R7). -/

namespace Sys2Proof.Machine

/-- R5: FRAME_MIN. -/
def frameMin : Nat := 12

/-- R5: FRAME_MAX. -/
def frameMax : Nat := 64

/-- R5: OPTS_MAX. -/
def optsMax : Nat := 15

/-- R5: JREQ_BYTES. -/
def jreqBytes : Nat := 18

/-- R6: FRAME_PAYLOAD_MIN, FRAME_MIN less the type byte and the tag. -/
def framePayloadMin : Nat := 7

/-- R6: FRAME_PAYLOAD_MAX, FRAME_MAX less the type byte and the tag. -/
def framePayloadMax : Nat := 59

/-- R6: MAC_HEADER_BYTES. -/
def macHeaderBytes : Nat := 7

/-- R40: what a 1-byte length field can express, the capacity of every other `var` operand. -/
def varMax : Nat := 255

/-- R40, R138: the longest `msg` of MIC.DATA and MIC.CHECK; 16 of the 255 bytes go to the prefix block. -/
def micMsgMax : Nat := 239

/-- R5: JOIN_DELAY_MS, the delay budget of a join accept. -/
def joinDelayMs : Nat := 5000

/-- R5: DATA_DELAY_MS, the delay budget of a data response. -/
def dataDelayMs : Nat := 1000

/-- R5: MARGIN_OFFSET. -/
def marginOffset : Int := 120

/-- R220: the largest `rssi` whose margin fits one byte. -/
def rssiMax : Int := 135

/-- R5: JACC_SETTINGS. -/
def jaccSettings : Byte := 0x00

/-- R7: JACC_RXDELAY, one second. -/
def jaccRxDelay : Byte := 0x01

/-- R5, R226: NETID, all zero. -/
def netId : Bytes3 := ⟨0x00, 0x00, 0x00⟩

/-- R5: CMAC_RB, the doubling constant. -/
def cmacRb : Byte := 0x87

/-- R5: CMAC_PAD, the first padding byte. -/
def cmacPad : Byte := 0x80

/-- R7, R79: the first byte of the MIC prefix block. -/
def micPrefixByte : Byte := 0x49

/-- R76: the first byte of a keystream block. -/
def keystreamByte : Byte := 0x01

/-- R7, R80: LINKCHECK_CID. -/
def linkCheckCid : Byte := 0x02

/-- R7, R80: GATEWAY_COUNT. -/
def gatewayCount : Byte := 0x01

end Sys2Proof.Machine
end

