-- ==== Sys2Proof/Machine/Records.lean ====
section
/-! DEFINITION. The records and the fixed sets of names that the rules speak of: directions, key flavors, frame types,
the frame and its inner records (spec/30_encoding.md R70 to R77, spec/44_wire_codecs.md R172), the freshness classes
(spec/45_frame_counter.md R203), the session and the identity (spec/10_state.md R13, R14), the causes of a drop
(spec/60_exceptions.md R261) and the outbound events (R268). -/

namespace Sys2Proof.Machine

/-- R77: the direction of a data frame. -/
inductive Dir where
  | up
  | down
  deriving DecidableEq, Repr

/-- R160: the flavor of a derived key. -/
inductive Flavor where
  | network
  | application
  deriving DecidableEq, Repr

/-- R71: the six type bytes. -/
inductive FrameType where
  | joinRequest
  | joinAccept
  | unconfirmedUp
  | unconfirmedDown
  | confirmedUp
  | confirmedDown
  deriving DecidableEq, Repr

/-- R70: an outer frame that has decoded. -/
structure Frame where
  type : FrameType
  payload : List Byte
  tag : Bytes4
  deriving DecidableEq, Repr

/-- R172: the MacPayload record; `addr` in internal order, `port` absent or a byte. -/
structure MacPayload where
  addr : Bytes4
  pending : Bool
  ack : Bool
  adrAckReq : Bool
  adr : Bool
  fcnt16 : U16
  opts : List Byte
  port : Option Byte
  app : List Byte
  deriving DecidableEq, Repr

/-- R73: a decoded join request, every field in internal order. -/
structure JoinRequest where
  appEui : Bytes8
  devEui : Bytes8
  devNonce : Bytes2
  deriving DecidableEq, Repr

/-- R203: the freshness classes. -/
inductive FreshClass where
  | stale
  | replay
  | fresh
  deriving DecidableEq, Repr

/-- R261: the source's closed set of local conditions, raised by the decoders and by the tag check; as a command's
outcome each is a bare FAIL (R265). -/
inductive LocalFail where
  /-- R170, R173, R176. -/
  | lengthOutOfBounds
  /-- R170. -/
  | unsupportedType
  /-- R173. -/
  | optsExceedBuffer
  /-- R139. -/
  | tagMismatch
  deriving DecidableEq, Repr

/-- R261: the twelve causes of a silent drop, in the order of the table. R262: no cause is recorded; the cause is a
label that the step throws away. -/
inductive DropCause where
  /-- Cause 1. -/
  | frameLength
  /-- Cause 2. -/
  | unsupportedType
  /-- Cause 3. -/
  | joinNotEnabled
  /-- Cause 4. -/
  | inboundJoinAccept
  /-- Cause 5. -/
  | joinRequestLength
  /-- Cause 6. -/
  | identityMismatch
  /-- Cause 7. -/
  | joinTagMismatch
  /-- Cause 8. -/
  | noSession
  /-- Cause 9. -/
  | optsExceedBuffer
  /-- Cause 10. -/
  | addressMismatch
  /-- Cause 11. -/
  | dataTagMismatch
  /-- Cause 12. -/
  | stale
  deriving DecidableEq, Repr

/-- R13: DeviceIdentity, in internal order. -/
structure Identity where
  devEui : Bytes8
  appEui : Bytes8
  rootKey : Block
  deriving DecidableEq, Repr

/-- R14: DeviceSession, the record that every SAVE event hands over (R270): `S.DEVADDR`, `S.APPSKEY`, `S.NWKSKEY`,
`S.FCNTUP`, `S.FCNTDOWN`. -/
structure Session where
  devAddr : Bytes4
  appSKey : Block
  nwkSKey : Block
  fcntUp : U32
  fcntDown : U32
  deriving DecidableEq, Repr

/-- R268: the four outbound events, each carrying values. -/
inductive Event where
  /-- R269: radio transmit, with the number of bytes and the delay in milliseconds. -/
  | emit (bytes : List Byte) (len : Nat) (delay : Nat)
  /-- R270: persistence. -/
  | save (record : Session)
  /-- R271: application delivery. -/
  | deliver (port : Byte) (payload : List Byte) (len : Nat)
  /-- R272: join notification. -/
  | joined
  deriving DecidableEq, Repr

end Sys2Proof.Machine
end

