-- ==== Sys2Proof/Machine/Cmac.lean ====
section
/-! DEFINITION. The CMAC and the 4-byte tag of a frame (spec/41_cmac.md R130 to R137, spec/30_encoding.md R77, R79). -/

namespace Sys2Proof.Machine

/-- R131: a byte shifted left by one, its bit 0 filled from the top bit of the byte after it. -/
def shl1 (b next : Byte) : Byte := (b <<< 1) ||| (next >>> 7)

/-- R131: `Dbl`. -/
def dbl (B : Block) : Block :=
  ⟨⟨shl1 B.c0.b0 B.c0.b1, shl1 B.c0.b1 B.c0.b2, shl1 B.c0.b2 B.c0.b3, shl1 B.c0.b3 B.c1.b0⟩,
   ⟨shl1 B.c1.b0 B.c1.b1, shl1 B.c1.b1 B.c1.b2, shl1 B.c1.b2 B.c1.b3, shl1 B.c1.b3 B.c2.b0⟩,
   ⟨shl1 B.c2.b0 B.c2.b1, shl1 B.c2.b1 B.c2.b2, shl1 B.c2.b2 B.c2.b3, shl1 B.c2.b3 B.c3.b0⟩,
   ⟨shl1 B.c3.b0 B.c3.b1, shl1 B.c3.b1 B.c3.b2, shl1 B.c3.b2 B.c3.b3,
    if B.c0.b0.msb then (B.c3.b3 <<< 1) ^^^ cmacRb else B.c3.b3 <<< 1⟩⟩

/-- R130: the subkey seed L. -/
def cmacSeed (key : Block) : Block := aesEnc key zeroBlock

/-- R132: K1. -/
def subkey1 (key : Block) : Block := dbl (cmacSeed key)

/-- R132: K2. -/
def subkey2 (key : Block) : Block := dbl (subkey1 key)

/-- R133: the number q of blocks; there is always at least one. -/
def cmacBlockCount (n : Nat) : Nat := if n > 0 ∧ n % 16 = 0 then n / 16 else n / 16 + 1

/-- R133: the final block, adjusted with K1 when it is complete and padded and adjusted with K2 otherwise. -/
def cmacLastBlock (key : Block) (msg : List Byte) : Block :=
  let n := msg.length
  let tail := slice msg (16 * (cmacBlockCount n - 1)) n
  if n > 0 ∧ n % 16 = 0 then (Block.ofBytes tail).xor (subkey1 key)
  else (Block.ofBytes (tail ++ [cmacPad] ++ zeros (15 - n % 16))).xor (subkey2 key)

/-- R133: `Blocks(key, msg)`. -/
def cmacBlocks (key : Block) (msg : List Byte) : List Block :=
  (List.range (cmacBlockCount msg.length - 1)).map (fun j => Block.ofBytes (slice msg (16 * j) (16 * j + 16)))
    ++ [cmacLastBlock key msg]

/-- R134: one step of the chain. -/
def cmacStep (key X blk : Block) : Block := aesEnc key (X.xor blk)

/-- R134: the chain over the blocks of a message, from a running state. -/
def cmacFrom (key X : Block) (msg : List Byte) : Block := (cmacBlocks key msg).foldl (cmacStep key) X

/-- R134: `Cmac(key, msg)`; the running state starts as sixteen zero bytes. -/
def cmac (key : Block) (msg : List Byte) : Block := cmacFrom key zeroBlock msg

/-- R135: the first 4 bytes of the 16-byte CMAC; only the result is truncated. -/
def truncateTag (tag : Block) : Bytes4 := tag.c0

/-- R136: `MicPlain(key, msg)`. -/
def micPlain (key : Block) (msg : List Byte) : Bytes4 := truncateTag (cmac key msg)

/-- R77: the direction byte. -/
def Dir.toByte : Dir → Byte
  | .up => 0x00
  | .down => 0x01

/-- R79, R137: `B0(cnt, dir, addr, n)`. -/
def micPrefixBlock (cnt : U32) (dir : Dir) (addr : Bytes4) (n : Nat) : List Byte :=
  [micPrefixByte] ++ zeros 4 ++ [dir.toByte] ++ addr.rev.toList ++ le32 cnt ++ [0x00, BitVec.ofNat 8 n]

/-- R137: `MicData(key, cnt, dir, addr, msg)`. -/
def micData (key : Block) (cnt : U32) (dir : Dir) (addr : Bytes4) (msg : List Byte) : Bytes4 :=
  truncateTag (cmac key (micPrefixBlock cnt dir addr msg.length ++ msg))

end Sys2Proof.Machine
end

