-- ==== Sys2Proof/Machine/Ctr.lean ====
section
/-! DEFINITION. The counter-mode keystream cipher (spec/42_ctr_cipher.md R150 to R152, spec/30_encoding.md R76). -/

namespace Sys2Proof.Machine

/-- R76, R150: the counter block `A(cnt, dir, addr, i)`. -/
def keystreamInput (cnt : U32) (dir : Dir) (addr : Bytes4) (i : Nat) : List Byte :=
  [keystreamByte] ++ zeros 4 ++ [dir.toByte] ++ addr.rev.toList ++ le32 cnt ++ [0x00, BitVec.ofNat 8 i]

/-- R150: the keystream block `S(i)`. -/
def keystreamBlock (key : Block) (cnt : U32) (dir : Dir) (addr : Bytes4) (i : Nat) : Block :=
  aesEnc key (Block.ofBytes (keystreamInput cnt dir addr i))

/-- R150, R151: the first bytes of the keystream, whole blocks from index 1, at least `n` bytes of them. -/
def keystream (key : Block) (cnt : U32) (dir : Dir) (addr : Bytes4) (n : Nat) : List Byte :=
  (List.range ((n + 15) / 16)).flatMap fun j => (keystreamBlock key cnt dir addr (j + 1)).toList

/-- R152: `Ctr(data, cnt, addr, key, dir)`; the last keystream block is used only as far as the data reaches (R151). -/
def ctr (data : List Byte) (cnt : U32) (addr : Bytes4) (key : Block) (dir : Dir) : List Byte :=
  List.zipWith (fun d s => d ^^^ s) data (keystream key cnt dir addr data.length)

end Sys2Proof.Machine
end

