-- ==== Sys2Proof/Machine/Kdf.lean ====
section
/-! DEFINITION. The session-key derivation (spec/43_key_derivation.md R160, R161, spec/30_encoding.md R78). -/

namespace Sys2Proof.Machine

/-- R160: the tag byte of a flavor. -/
def Flavor.toByte : Flavor → Byte
  | .network => 0x01
  | .application => 0x02

/-- R78, R160: `KdfBlock(flavor, joinNonce, netId, devNonce)`. -/
def kdfBlock (flavor : Flavor) (joinNonce netId : Bytes3) (devNonce : Bytes2) : List Byte :=
  [flavor.toByte] ++ joinNonce.rev.toList ++ netId.rev.toList ++ devNonce.rev.toList ++ zeros 7

/-- R161: `Kdf(flavor, root, joinNonce, netId, devNonce)`. -/
def kdf (flavor : Flavor) (root : Block) (joinNonce netId : Bytes3) (devNonce : Bytes2) : Block :=
  aesEnc root (Block.ofBytes (kdfBlock flavor joinNonce netId devNonce))

end Sys2Proof.Machine
end

