-- ==== Sys2Proof/Config.lean ====
section
/-! DEFINITION. What is fixed for one device but left open by the spec (spec/00_scope.md R7, spec/10_state.md R24,
spec/92_eei_decisions.md D5, D6, D9, D24). Every entry is an uninterpreted constant: nothing can be proved about its
value, so a claim about the model holds whatever it is. -/

namespace Sys2Proof.Config

/-- R7, R13: the model argument IDENT_APPEUI, in internal order. -/
opaque identAppEui : Bytes8

/-- R7, R13: the model argument IDENT_DEVEUI, in internal order. -/
opaque identDevEui : Bytes8

/-- R7, R13: the model argument IDENT_ROOTKEY. -/
opaque identRootKey : Block

/-- R7, R24: the model argument DEVADDR_INIT, in internal order; the reset value of `S.DEVADDR`. -/
opaque devAddrInit : Bytes4

/-- R24, D9: what `S.APPSKEY` holds after reset. The spec: "a model must not pick a value for it"
(DESIGN CHOICE, notes/assumptions/3.md: a free value). -/
opaque appSKeyAtReset : Block

/-- R24, D9: what `S.NWKSKEY` holds after reset, a free value (DESIGN CHOICE, notes/assumptions/3.md). -/
opaque nwkSKeyAtReset : Block

/-- R24, D9: what `S.FCNTUP` holds after reset, a free value (DESIGN CHOICE, notes/assumptions/3.md). -/
opaque fcntUpAtReset : U32

/-- R24, D9: what `S.FCNTDOWN` holds after reset, a free value (DESIGN CHOICE, notes/assumptions/3.md). -/
opaque fcntDownAtReset : U32

/-- R21, D24: the join nonce of the `n`-th draw for which the environment has supplied no bytes beforehand: three
free bytes under no law (notes/assumptions/4.md). -/
opaque freeNonce : Nat → Bytes3

end Sys2Proof.Config
end

