-- ==== Sys2Proof/Machine/Codec.lean ====
section
/-! DEFINITION. The wire codecs (spec/44_wire_codecs.md R170 to R177) over the layouts of spec/30_encoding.md R70 to
R74. A decoder gives slices and reversals of its input or one of the source's local conditions. -/

namespace Sys2Proof.Machine

/-- R71: the type byte of a frame type. -/
def FrameType.toByte : FrameType → Byte
  | .joinRequest => 0x00
  | .joinAccept => 0x20
  | .unconfirmedUp => 0x40
  | .unconfirmedDown => 0x60
  | .confirmedUp => 0x80
  | .confirmedDown => 0xA0

/-- R71: the whole byte is compared; any other value is no type. -/
def frameTypeOf (b : Byte) : Option FrameType :=
  if b = 0x00 then some .joinRequest
  else if b = 0x20 then some .joinAccept
  else if b = 0x40 then some .unconfirmedUp
  else if b = 0x60 then some .unconfirmedDown
  else if b = 0x80 then some .confirmedUp
  else if b = 0xA0 then some .confirmedDown
  else none

/-- R71: the class of a type, data or non-data. -/
def FrameType.isData : FrameType → Bool
  | .joinRequest => false
  | .joinAccept => false
  | .unconfirmedUp => true
  | .unconfirmedDown => true
  | .confirmedUp => true
  | .confirmedDown => true

/-- R71, R77: the direction of a data type; the join types have none and are never asked for one. -/
def FrameType.dir : FrameType → Dir
  | .joinRequest => .up
  | .joinAccept => .up
  | .unconfirmedUp => .up
  | .unconfirmedDown => .down
  | .confirmedUp => .up
  | .confirmedDown => .down

/-- R170: `FrmDec(raw)`; the length check comes first. -/
def frmDec (raw : List Byte) : Except LocalFail Frame :=
  if raw.length < frameMin ∨ frameMax < raw.length then .error .lengthOutOfBounds
  else
    match frameTypeOf (byteAt raw 0) with
    | none => .error .unsupportedType
    | some t => .ok ⟨t, slice raw 1 (raw.length - 4), Bytes4.ofBytes (slice raw (raw.length - 4) raw.length)⟩

/-- R171: `FrmEnc(type, payload, tag)`. -/
def frmEnc (type : Byte) (payload : List Byte) (tag : Bytes4) : List Byte := [type] ++ payload ++ tag.toList

/-- R72: the four flag bits of a control byte, in place. -/
def flagBits (pending ack adrAckReq adr : Bool) : Byte :=
  (if pending then 0x10 else 0x00) ||| (if ack then 0x20 else 0x00)
    ||| (if adrAckReq then 0x40 else 0x00) ||| (if adr then 0x80 else 0x00)

/-- R72: the flag bits of a record as the `flags` byte of MAC.DEC and MAC.ENC (R64), bits 3:0 zero. -/
def MacPayload.flags (m : MacPayload) : Byte := flagBits m.pending m.ack m.adrAckReq m.adr

/-- R72, R174: the control byte, the options length in bits 3:0. -/
def MacPayload.controlByte (m : MacPayload) : Byte := BitVec.ofNat 8 m.opts.length ||| m.flags

/-- R172: if the port is absent then the application payload is empty. -/
def MacPayload.portOk (m : MacPayload) : Bool := m.port.isSome || m.app.isEmpty

/-- R172: the encoded length. -/
def MacPayload.encodedLength (m : MacPayload) : Nat :=
  macHeaderBytes + m.opts.length + (if m.port.isSome then 1 + m.app.length else 0)

/-- R72, R82: the options length, bits 3:0 of the control byte. -/
def optsLength (control : Byte) : Nat := (control &&& 0x0F).toNat

/-- R173: `MacDec(p)`; every length check precedes the copy it guards. -/
def macDec (p : List Byte) : Except LocalFail MacPayload :=
  if p.length < macHeaderBytes then .error .lengthOutOfBounds
  else
    let c := byteAt p 4
    let L := optsLength c
    if p.length < macHeaderBytes + L then .error .optsExceedBuffer
    else
      .ok { addr := (Bytes4.ofBytes (slice p 0 4)).rev
            pending := c.getLsbD 4
            ack := c.getLsbD 5
            adrAckReq := c.getLsbD 6
            adr := c.getLsbD 7
            fcnt16 := u16le (byteAt p 5) (byteAt p 6)
            opts := slice p 7 (7 + L)
            port := if 7 + L < p.length then some (byteAt p (7 + L)) else none
            app := if 7 + L < p.length then slice p (8 + L) p.length else [] }

/-- R174: the port byte and the application payload; no byte stands for a missing port. -/
def MacPayload.portBytes (m : MacPayload) : List Byte :=
  match m.port with
  | some port => [port] ++ m.app
  | none => []

/-- R174: `MacEnc(m)`. -/
def macEnc (m : MacPayload) : List Byte :=
  m.addr.rev.toList ++ [m.controlByte] ++ le16 m.fcnt16 ++ m.opts ++ m.portBytes

/-- R176: `JreqDec(p)`. -/
def jreqDec (p : List Byte) : Except LocalFail JoinRequest :=
  if p.length ≠ jreqBytes then .error .lengthOutOfBounds
  else
    .ok { appEui := (Bytes8.ofBytes (slice p 0 8)).rev
          devEui := (Bytes8.ofBytes (slice p 8 16)).rev
          devNonce := (Bytes2.ofBytes (slice p 16 18)).rev }

/-- R177: `JaccEnc(joinNonce, netId, addr, settings, rxDelay)`. -/
def jaccEnc (joinNonce netId : Bytes3) (addr : Bytes4) (settings rxDelay : Byte) : List Byte :=
  joinNonce.rev.toList ++ netId.rev.toList ++ addr.rev.toList ++ [settings] ++ [rxDelay] ++ zeros 16

end Sys2Proof.Machine
end

