-- ==== Sys2Proof/Syntax.lean ====
section
/-! DEFINITION. The instructions: one constructor per row of spec/opcode_table.json. The first nineteen are the
commands of spec/30_encoding.md R62 with the operands of R64, in serialisation order; the last six are the frame types
of R71: an inbound frame of that type as the radio hands it over, with the two values that RX.FRAME takes beside it. -/

namespace Sys2Proof

/-- R62, R64, R71. Byte operands whose legal values are limited (`dir`, `flavor`, `flags`, `cfg`) are held as they
stand in the command; WellFormed.lean says which values are legal. -/
inductive Instr where
  /-- AES.ENC (R100). -/
  | aesEnc (key blk : Block)
  /-- AES.DEC (R110). -/
  | aesDec (key blk : Block)
  /-- CMAC.TAG (R134). -/
  | cmacTag (key : Block) (msg : List Byte)
  /-- MIC.PLAIN (R136). -/
  | micPlain (key : Block) (msg : List Byte)
  /-- MIC.DATA (R138). -/
  | micData (key : Block) (cnt : U32) (dir : Byte) (addr : Bytes4) (msg : List Byte)
  /-- MIC.CHECK (R139). -/
  | micCheck (key : Block) (cnt : U32) (dir : Byte) (addr mic : Bytes4) (msg : List Byte)
  /-- CTR.APPLY (R152). -/
  | ctrApply (key : Block) (cnt : U32) (dir : Byte) (addr : Bytes4) (data : List Byte)
  /-- KDF.DERIVE (R161). -/
  | kdfDerive (flavor : Byte) (root : Block) (joinNonce netId : Bytes3) (devNonce : Bytes2)
  /-- FRM.DEC (R170). -/
  | frmDec (raw : List Byte)
  /-- FRM.ENC (R171). -/
  | frmEnc (type : Byte) (payload : List Byte) (tag : Bytes4)
  /-- MAC.DEC (R173). -/
  | macDec (payload : List Byte)
  /-- MAC.ENC (R174). -/
  | macEnc (addr : Bytes4) (flags : Byte) (fcnt16 : U16) (opts : List Byte) (hasPort : Bool) (port : Byte)
      (app : List Byte)
  /-- JREQ.DEC (R176). -/
  | jreqDec (payload : List Byte)
  /-- JACC.ENC (R177). -/
  | jaccEnc (joinNonce netId : Bytes3) (addr : Bytes4) (settings rxDelay : Byte)
  /-- FCNT.CAND (R200). -/
  | fcntCand (wire16 : U16) (stored : U32) (resetAllowed : Bool)
  /-- FCNT.CLASS (R203). -/
  | fcntClass (acc stored : U32)
  /-- RX.FRAME (R220); `rssi` is the `i16` in its 16 bits. -/
  | rxFrame (raw : List Byte) (rssi : U16) (resetAllowed : Bool)
  /-- SESS.LOAD (R250). -/
  | sessLoad (addr : Bytes4) (appSKey nwkSKey : Block) (up down : U32)
  /-- CFG.SET (R251). -/
  | cfgSet (cfg : Byte)
  /-- TYPE.JOIN_REQUEST (R71, R222): the frame `0x00 || payload || tag`. -/
  | typeJoinRequest (payload : List Byte) (tag : Bytes4) (rssi : U16) (resetAllowed : Bool)
  /-- TYPE.JOIN_ACCEPT (R71, R221): the frame `0x20 || payload || tag`. -/
  | typeJoinAccept (payload : List Byte) (tag : Bytes4) (rssi : U16) (resetAllowed : Bool)
  /-- TYPE.UNCONFIRMED_UP (R71, R230): the frame `0x40 || payload || tag`. -/
  | typeUnconfirmedUp (payload : List Byte) (tag : Bytes4) (rssi : U16) (resetAllowed : Bool)
  /-- TYPE.UNCONFIRMED_DOWN (R71, R230): the frame `0x60 || payload || tag`. -/
  | typeUnconfirmedDown (payload : List Byte) (tag : Bytes4) (rssi : U16) (resetAllowed : Bool)
  /-- TYPE.CONFIRMED_UP (R71, R230): the frame `0x80 || payload || tag`. -/
  | typeConfirmedUp (payload : List Byte) (tag : Bytes4) (rssi : U16) (resetAllowed : Bool)
  /-- TYPE.CONFIRMED_DOWN (R71, R230): the frame `0xA0 || payload || tag`. -/
  | typeConfirmedDown (payload : List Byte) (tag : Bytes4) (rssi : U16) (resetAllowed : Bool)
  deriving DecidableEq, Repr

/-- Why the operands of a command exclude it (R65, R266 rows 2 to 5). -/
inductive IllFormed where
  /-- R64: `dir` is neither 0 nor 1. -/
  | badDir
  /-- R64: `flavor` is neither 0x01 nor 0x02. -/
  | badFlavor
  /-- R64: bits 3:0 of the `flags` operand of MAC.ENC are not 0. -/
  | badFlags
  /-- R64, R174: `hasPort` is false and `port` is not 0x00 or `app` is not empty. -/
  | portlessApp
  /-- R64, R251: one of bits 7:2 of `cfg` is set. -/
  | badCfg
  /-- R40: a `raw`, `msg` or `data` operand longer than the 255 bytes its length byte can express. -/
  | varTooLong
  /-- R40, R138: a `msg` above 239 bytes for MIC.DATA or MIC.CHECK. -/
  | msgTooLong
  /-- R40: a `payload` above 59 bytes for MAC.DEC, JREQ.DEC or FRM.ENC. -/
  | payloadTooLong
  /-- R40, R174: `opts` above 15 bytes. -/
  | optsTooLong
  /-- R171: a `payload` under 7 bytes for FRM.ENC. -/
  | payloadTooShort
  /-- R174: a MAC.ENC result above 59 bytes. -/
  | encodedTooLong
  /-- R70, R71: a frame-type term whose frame is not 12 to 64 bytes long is no frame (WellFormed only; never a
  refusal of the machine, which drops such a frame, R83). -/
  | frameLength
  /-- R220: RX.FRAME with `rssi > 135`. -/
  | rssiTooHigh
  deriving DecidableEq, Repr

end Sys2Proof
end

