-- ==== Sys2Proof/Machine/Operands.lean ====
section
/-! DEFINITION. The operand forms of the commands and what each excludes (spec/30_encoding.md R63 to R65,
spec/20_memory.md R40, spec/60_exceptions.md R266 rows 2 to 5): for every command one check that names the first
operand that is not legal. -/

namespace Sys2Proof.Machine

/-- R64: what a legal `dir` operand stands for, 0 uplink and 1 downlink. -/
def dirOf (dir : Byte) : Dir := if dir = 0x00 then .up else .down

/-- R64: what a legal `flavor` operand stands for, 0x01 network and 0x02 application. -/
def flavorOf (flavor : Byte) : Flavor := if flavor = 0x01 then .network else .application

/-- R63: the value of the `i16` operand. -/
def rssiValue (rssi : U16) : Int := rssi.toInt

/-- R64, R172: the record that the operands of MAC.ENC are. -/
def macOperand (addr : Bytes4) (flags : Byte) (fcnt16 : U16) (opts : List Byte) (hasPort : Bool) (port : Byte)
    (app : List Byte) : MacPayload :=
  { addr := addr
    pending := flags.getLsbD 4
    ack := flags.getLsbD 5
    adrAckReq := flags.getLsbD 6
    adr := flags.getLsbD 7
    fcnt16 := fcnt16
    opts := opts
    port := if hasPort then some port else none
    app := app }

/-- A condition that must hold, or the reason why the command is not legal. -/
def need (ok : Bool) (reason : IllFormed) : Option IllFormed := if ok then none else some reason

/-- R64: `dir` is 0 or 1. -/
def needDir (dir : Byte) : Option IllFormed := need (dir == 0x00 || dir == 0x01) .badDir

/-- R40: a `var` operand of at most `cap` bytes. -/
def needLen (cap : Nat) (B : List Byte) (reason : IllFormed) : Option IllFormed :=
  need (decide (B.length ≤ cap)) reason

/-- R40: the `msg` of CMAC.TAG and MIC.PLAIN. -/
def checkMsg (msg : List Byte) : Option IllFormed := needLen varMax msg .varTooLong

/-- R138: the operands of MIC.DATA and MIC.CHECK. -/
def checkMicData (dir : Byte) (msg : List Byte) : Option IllFormed :=
  (needDir dir).or (needLen micMsgMax msg .msgTooLong)

/-- R152: the operands of CTR.APPLY. -/
def checkCtr (dir : Byte) (data : List Byte) : Option IllFormed := (needDir dir).or (needLen varMax data .varTooLong)

/-- R161: the `flavor` of KDF.DERIVE. -/
def checkFlavor (flavor : Byte) : Option IllFormed := need (flavor == 0x01 || flavor == 0x02) .badFlavor

/-- R40, R170: the `raw` of FRM.DEC, up to 255 bytes. -/
def checkRaw (raw : List Byte) : Option IllFormed := needLen varMax raw .varTooLong

/-- R171, R178: the `payload` of FRM.ENC, 7 to 59 bytes. -/
def checkFrmEnc (payload : List Byte) : Option IllFormed :=
  (needLen framePayloadMax payload .payloadTooLong).or
    (need (decide (framePayloadMin ≤ payload.length)) .payloadTooShort)

/-- R40: the `payload` of MAC.DEC and JREQ.DEC. -/
def checkPayload (payload : List Byte) : Option IllFormed := needLen framePayloadMax payload .payloadTooLong

/-- R64, R174, R178: the operands of MAC.ENC. -/
def checkMacEnc (addr : Bytes4) (flags : Byte) (fcnt16 : U16) (opts : List Byte) (hasPort : Bool) (port : Byte)
    (app : List Byte) : Option IllFormed :=
  (need ((flags &&& 0x0F) == 0x00) .badFlags).or <|
  (needLen optsMax opts .optsTooLong).or <|
  (need (hasPort || (port == 0x00 && app.isEmpty)) .portlessApp).or <|
  need (decide ((macOperand addr flags fcnt16 opts hasPort port app).encodedLength ≤ framePayloadMax)) .encodedTooLong

/-- R220: the precondition on the signal strength. -/
def checkRssi (rssi : U16) : Option IllFormed := need (decide (rssiValue rssi ≤ rssiMax)) .rssiTooHigh

/-- R40, R220: the operands of RX.FRAME. -/
def checkRx (raw : List Byte) (rssi : U16) : Option IllFormed := (checkRaw raw).or (checkRssi rssi)

/-- R251: bits 7:2 of `cfg` are zero. -/
def checkCfg (cfg : Byte) : Option IllFormed := need ((cfg &&& 0xFC) == 0x00) .badCfg

/-- R70, R71: the payload of a frame-type term, 7 to 59 bytes. -/
def checkFramePayload (payload : List Byte) : Option IllFormed :=
  need (decide (framePayloadMin ≤ payload.length) && decide (payload.length ≤ framePayloadMax)) .frameLength

end Sys2Proof.Machine
end

