-- ==== Sys2Proof/WellFormed.lean ====
section
/-! DEFINITION. Which terms of `Instr` are instructions: the commands whose operands spec/30_encoding.md R65 and
spec/60_exceptions.md R266 (rows 2 to 5) do not exclude, and the frame-type terms whose frame is 12 to 64 bytes long
(spec/30_encoding.md R70). The checks themselves are in Machine/Operands.lean. -/

namespace Sys2Proof

open Machine

/-- The first reason why a term is not an instruction, or none. -/
def Instr.issue : Instr → Option IllFormed
  | .aesEnc _ _ => none
  | .aesDec _ _ => none
  | .cmacTag _ msg => checkMsg msg
  | .micPlain _ msg => checkMsg msg
  | .micData _ _ dir _ msg => checkMicData dir msg
  | .micCheck _ _ dir _ _ msg => checkMicData dir msg
  | .ctrApply _ _ dir _ data => checkCtr dir data
  | .kdfDerive flavor _ _ _ _ => checkFlavor flavor
  | .frmDec raw => checkRaw raw
  | .frmEnc _ payload _ => checkFrmEnc payload
  | .macDec payload => checkPayload payload
  | .macEnc addr flags fcnt16 opts hasPort port app => checkMacEnc addr flags fcnt16 opts hasPort port app
  | .jreqDec payload => checkPayload payload
  | .jaccEnc _ _ _ _ _ => none
  | .fcntCand _ _ _ => none
  | .fcntClass _ _ => none
  | .rxFrame raw rssi _ => checkRx raw rssi
  | .sessLoad _ _ _ _ _ => none
  | .cfgSet cfg => checkCfg cfg
  | .typeJoinRequest payload _ rssi _ => (checkFramePayload payload).or (checkRssi rssi)
  | .typeJoinAccept payload _ rssi _ => (checkFramePayload payload).or (checkRssi rssi)
  | .typeUnconfirmedUp payload _ rssi _ => (checkFramePayload payload).or (checkRssi rssi)
  | .typeUnconfirmedDown payload _ rssi _ => (checkFramePayload payload).or (checkRssi rssi)
  | .typeConfirmedUp payload _ rssi _ => (checkFramePayload payload).or (checkRssi rssi)
  | .typeConfirmedDown payload _ rssi _ => (checkFramePayload payload).or (checkRssi rssi)

/-- A term without an issue. -/
def Instr.wellFormed (i : Instr) : Bool := i.issue.isNone

/-- The classes of the opcode table: PURE, CHECK and STATE commands (R62) and frame types (R71). -/
inductive InstrClass where
  | pure
  | check
  | state
  | frame
  deriving DecidableEq, Repr

/-- R62, R71: the class of an instruction. -/
def Instr.instrClass : Instr → InstrClass
  | .aesEnc _ _ => .pure
  | .aesDec _ _ => .pure
  | .cmacTag _ _ => .pure
  | .micPlain _ _ => .pure
  | .micData _ _ _ _ _ => .pure
  | .micCheck _ _ _ _ _ _ => .check
  | .ctrApply _ _ _ _ _ => .pure
  | .kdfDerive _ _ _ _ _ => .pure
  | .frmDec _ => .check
  | .frmEnc _ _ _ => .pure
  | .macDec _ => .check
  | .macEnc _ _ _ _ _ _ _ => .pure
  | .jreqDec _ => .check
  | .jaccEnc _ _ _ _ _ => .pure
  | .fcntCand _ _ _ => .pure
  | .fcntClass _ _ => .pure
  | .rxFrame _ _ _ => .state
  | .sessLoad _ _ _ _ _ => .state
  | .cfgSet _ => .state
  | .typeJoinRequest _ _ _ _ => .frame
  | .typeJoinAccept _ _ _ _ => .frame
  | .typeUnconfirmedUp _ _ _ _ => .frame
  | .typeUnconfirmedDown _ _ _ _ => .frame
  | .typeConfirmedUp _ _ _ _ => .frame
  | .typeConfirmedDown _ _ _ _ => .frame

/-- R62: one of the nineteen commands of the host's interface. -/
def Instr.isCommand (i : Instr) : Bool := i.instrClass != .frame

/-- R18, R62: one of the sixteen commands that read and write no state. -/
def Instr.isComputational (i : Instr) : Bool := i.instrClass == .pure || i.instrClass == .check

end Sys2Proof
end

