-- ==== Sys2Proof/Decode.lean ====
section
/-! DEFINITION. The decoder of command byte strings (spec/30_encoding.md R60 to R65), total on any bytes and rejecting
by name; the decoder of a received frame into its frame-type instruction (R70, R71); after them the encoders, from the
same rules; and the decoder as the rows of spec/opcode_table.json number their bits. The decoder reads the layout and
the `flag` bytes; the other operand values that R64 limits are refused where the command runs (Machine/Operands.lean),
each under its own name. -/

namespace Sys2Proof

open Machine

/-- Why a byte string is no command (R65, R266 row 1, and the `flag` bytes of row 2). -/
inductive DecodeError where
  /-- R65: the opcode byte is not in the map. -/
  | unknownOpcode (op : Byte)
  /-- R65: shorter than its operands require; an empty byte string too. -/
  | tooShort
  /-- R65: bytes after the last operand. -/
  | tooLong
  /-- R63: a `flag` byte other than 0x00 and 0x01. -/
  | badFlag (b : Byte)
  deriving DecidableEq, Repr

/-! A reader of one operand gives the operand and the bytes after it. -/

/-- R63: `u8`. -/
def readU8 : List Byte → Except DecodeError (Byte × List Byte)
  | b :: r => .ok (b, r)
  | [] => .error .tooShort

/-- R63: `b2`. -/
def readB2 : List Byte → Except DecodeError (Bytes2 × List Byte)
  | x0 :: x1 :: r => .ok (⟨x0, x1⟩, r)
  | _ => .error .tooShort

/-- R63: `b3`. -/
def readB3 : List Byte → Except DecodeError (Bytes3 × List Byte)
  | x0 :: x1 :: x2 :: r => .ok (⟨x0, x1, x2⟩, r)
  | _ => .error .tooShort

/-- R63: `b4`. -/
def readB4 : List Byte → Except DecodeError (Bytes4 × List Byte)
  | x0 :: x1 :: x2 :: x3 :: r => .ok (⟨x0, x1, x2, x3⟩, r)
  | _ => .error .tooShort

/-- R63: `k16`. -/
def readK16 (bs : List Byte) : Except DecodeError (Block × List Byte) := do
  let (c0, bs) ← readB4 bs
  let (c1, bs) ← readB4 bs
  let (c2, bs) ← readB4 bs
  let (c3, bs) ← readB4 bs
  .ok (⟨c0, c1, c2, c3⟩, bs)

/-- R63: `u16le` (and the 16 bits of `i16le`). -/
def readU16 : List Byte → Except DecodeError (U16 × List Byte)
  | x0 :: x1 :: r => .ok (u16le x0 x1, r)
  | _ => .error .tooShort

/-- R63: `u32le`. -/
def readU32 : List Byte → Except DecodeError (U32 × List Byte)
  | x0 :: x1 :: x2 :: x3 :: r => .ok (u32le x0 x1 x2 x3, r)
  | _ => .error .tooShort

/-- R63: `var`. -/
def readVar : List Byte → Except DecodeError (List Byte × List Byte)
  | n :: r => if r.length < n.toNat then .error .tooShort else .ok (r.take n.toNat, r.drop n.toNat)
  | [] => .error .tooShort

/-- R63: `flag`. -/
def readFlag : List Byte → Except DecodeError (Bool × List Byte)
  | b :: r => if b = 0x00 then .ok (false, r) else if b = 0x01 then .ok (true, r) else .error (.badFlag b)
  | [] => .error .tooShort

/-- R64: `key:k16, blk:k16`. -/
def decodeAesEnc (bs : List Byte) : Except DecodeError (Instr × List Byte) := do
  let (key, bs) ← readK16 bs
  let (blk, bs) ← readK16 bs
  .ok (.aesEnc key blk, bs)

/-- R64: `key:k16, blk:k16`. -/
def decodeAesDec (bs : List Byte) : Except DecodeError (Instr × List Byte) := do
  let (key, bs) ← readK16 bs
  let (blk, bs) ← readK16 bs
  .ok (.aesDec key blk, bs)

/-- R64: `key:k16, msg:var`. -/
def decodeCmacTag (bs : List Byte) : Except DecodeError (Instr × List Byte) := do
  let (key, bs) ← readK16 bs
  let (msg, bs) ← readVar bs
  .ok (.cmacTag key msg, bs)

/-- R64: `key:k16, msg:var`. -/
def decodeMicPlain (bs : List Byte) : Except DecodeError (Instr × List Byte) := do
  let (key, bs) ← readK16 bs
  let (msg, bs) ← readVar bs
  .ok (.micPlain key msg, bs)

/-- R64: `key:k16, cnt:u32le, dir:u8, addr:b4, msg:var`. -/
def decodeMicData (bs : List Byte) : Except DecodeError (Instr × List Byte) := do
  let (key, bs) ← readK16 bs
  let (cnt, bs) ← readU32 bs
  let (dir, bs) ← readU8 bs
  let (addr, bs) ← readB4 bs
  let (msg, bs) ← readVar bs
  .ok (.micData key cnt dir addr msg, bs)

/-- R64: `key:k16, cnt:u32le, dir:u8, addr:b4, mic:b4, msg:var`. -/
def decodeMicCheck (bs : List Byte) : Except DecodeError (Instr × List Byte) := do
  let (key, bs) ← readK16 bs
  let (cnt, bs) ← readU32 bs
  let (dir, bs) ← readU8 bs
  let (addr, bs) ← readB4 bs
  let (mic, bs) ← readB4 bs
  let (msg, bs) ← readVar bs
  .ok (.micCheck key cnt dir addr mic msg, bs)

/-- R64: `key:k16, cnt:u32le, dir:u8, addr:b4, data:var`. -/
def decodeCtrApply (bs : List Byte) : Except DecodeError (Instr × List Byte) := do
  let (key, bs) ← readK16 bs
  let (cnt, bs) ← readU32 bs
  let (dir, bs) ← readU8 bs
  let (addr, bs) ← readB4 bs
  let (data, bs) ← readVar bs
  .ok (.ctrApply key cnt dir addr data, bs)

/-- R64: `flavor:u8, root:k16, joinNonce:b3, netId:b3, devNonce:b2`. -/
def decodeKdfDerive (bs : List Byte) : Except DecodeError (Instr × List Byte) := do
  let (flavor, bs) ← readU8 bs
  let (root, bs) ← readK16 bs
  let (joinNonce, bs) ← readB3 bs
  let (netId, bs) ← readB3 bs
  let (devNonce, bs) ← readB2 bs
  .ok (.kdfDerive flavor root joinNonce netId devNonce, bs)

/-- R64: `raw:var`. -/
def decodeFrmDec (bs : List Byte) : Except DecodeError (Instr × List Byte) := do
  let (raw, bs) ← readVar bs
  .ok (.frmDec raw, bs)

/-- R64: `type:u8, payload:var, tag:b4`. -/
def decodeFrmEnc (bs : List Byte) : Except DecodeError (Instr × List Byte) := do
  let (type, bs) ← readU8 bs
  let (payload, bs) ← readVar bs
  let (tag, bs) ← readB4 bs
  .ok (.frmEnc type payload tag, bs)

/-- R64: `payload:var`. -/
def decodeMacDec (bs : List Byte) : Except DecodeError (Instr × List Byte) := do
  let (payload, bs) ← readVar bs
  .ok (.macDec payload, bs)

/-- R64: `addr:b4, flags:u8, fcnt16:u16le, opts:var, hasPort:flag, port:u8, app:var`. -/
def decodeMacEnc (bs : List Byte) : Except DecodeError (Instr × List Byte) := do
  let (addr, bs) ← readB4 bs
  let (flags, bs) ← readU8 bs
  let (fcnt16, bs) ← readU16 bs
  let (opts, bs) ← readVar bs
  let (hasPort, bs) ← readFlag bs
  let (port, bs) ← readU8 bs
  let (app, bs) ← readVar bs
  .ok (.macEnc addr flags fcnt16 opts hasPort port app, bs)

/-- R64: `payload:var`. -/
def decodeJreqDec (bs : List Byte) : Except DecodeError (Instr × List Byte) := do
  let (payload, bs) ← readVar bs
  .ok (.jreqDec payload, bs)

/-- R64: `joinNonce:b3, netId:b3, addr:b4, settings:u8, rxDelay:u8`. -/
def decodeJaccEnc (bs : List Byte) : Except DecodeError (Instr × List Byte) := do
  let (joinNonce, bs) ← readB3 bs
  let (netId, bs) ← readB3 bs
  let (addr, bs) ← readB4 bs
  let (settings, bs) ← readU8 bs
  let (rxDelay, bs) ← readU8 bs
  .ok (.jaccEnc joinNonce netId addr settings rxDelay, bs)

/-- R64: `wire16:u16le, stored:u32le, resetAllowed:flag`. -/
def decodeFcntCand (bs : List Byte) : Except DecodeError (Instr × List Byte) := do
  let (wire16, bs) ← readU16 bs
  let (stored, bs) ← readU32 bs
  let (resetAllowed, bs) ← readFlag bs
  .ok (.fcntCand wire16 stored resetAllowed, bs)

/-- R64: `acc:u32le, stored:u32le`. -/
def decodeFcntClass (bs : List Byte) : Except DecodeError (Instr × List Byte) := do
  let (acc, bs) ← readU32 bs
  let (stored, bs) ← readU32 bs
  .ok (.fcntClass acc stored, bs)

/-- R64: `raw:var, rssi:i16le, resetAllowed:flag`. -/
def decodeRxFrame (bs : List Byte) : Except DecodeError (Instr × List Byte) := do
  let (raw, bs) ← readVar bs
  let (rssi, bs) ← readU16 bs
  let (resetAllowed, bs) ← readFlag bs
  .ok (.rxFrame raw rssi resetAllowed, bs)

/-- R64: `addr:b4, appSKey:k16, nwkSKey:k16, up:u32le, down:u32le`. -/
def decodeSessLoad (bs : List Byte) : Except DecodeError (Instr × List Byte) := do
  let (addr, bs) ← readB4 bs
  let (appSKey, bs) ← readK16 bs
  let (nwkSKey, bs) ← readK16 bs
  let (up, bs) ← readU32 bs
  let (down, bs) ← readU32 bs
  .ok (.sessLoad addr appSKey nwkSKey up down, bs)

/-- R64: `cfg:u8`. -/
def decodeCfgSet (bs : List Byte) : Except DecodeError (Instr × List Byte) := do
  let (cfg, bs) ← readU8 bs
  .ok (.cfgSet cfg, bs)

/-- R62: the opcode map, and for each opcode the reader of its operands; every other value is reserved (R65). -/
def decodeOperands (op : Byte) (bs : List Byte) : Except DecodeError (Instr × List Byte) :=
  if op = 0x01 then decodeAesEnc bs
  else if op = 0x02 then decodeAesDec bs
  else if op = 0x10 then decodeCmacTag bs
  else if op = 0x11 then decodeMicPlain bs
  else if op = 0x12 then decodeMicData bs
  else if op = 0x13 then decodeMicCheck bs
  else if op = 0x20 then decodeCtrApply bs
  else if op = 0x30 then decodeKdfDerive bs
  else if op = 0x40 then decodeFrmDec bs
  else if op = 0x41 then decodeFrmEnc bs
  else if op = 0x42 then decodeMacDec bs
  else if op = 0x43 then decodeMacEnc bs
  else if op = 0x44 then decodeJreqDec bs
  else if op = 0x45 then decodeJaccEnc bs
  else if op = 0x50 then decodeFcntCand bs
  else if op = 0x51 then decodeFcntClass bs
  else if op = 0x60 then decodeRxFrame bs
  else if op = 0x70 then decodeSessLoad bs
  else if op = 0x71 then decodeCfgSet bs
  else .error (.unknownOpcode op)

/-- R60: the command that a byte string begins with, and the bytes after it. -/
def decodeStream : List Byte → Except DecodeError (Instr × List Byte)
  | op :: bs => decodeOperands op bs
  | [] => .error .tooShort

/-- R60, R65: the command that a byte string is. -/
def decode (bs : List Byte) : Except DecodeError Instr :=
  match decodeStream bs with
  | .ok (i, []) => .ok i
  | .ok (_, _ :: _) => .error .tooLong
  | .error e => .error e

/-- R71: the frame-type instruction of a type, with the frame's other fields and the two values that the host hands
over beside a frame. -/
def frameInstr (type : FrameType) (payload : List Byte) (tag : Bytes4) (rssi : U16) (resetAllowed : Bool) : Instr :=
  match type with
  | .joinRequest => .typeJoinRequest payload tag rssi resetAllowed
  | .joinAccept => .typeJoinAccept payload tag rssi resetAllowed
  | .unconfirmedUp => .typeUnconfirmedUp payload tag rssi resetAllowed
  | .unconfirmedDown => .typeUnconfirmedDown payload tag rssi resetAllowed
  | .confirmedUp => .typeConfirmedUp payload tag rssi resetAllowed
  | .confirmedDown => .typeConfirmedDown payload tag rssi resetAllowed

/-- R70, R71: the frame-type instruction that a received frame is; rejected by the local condition of R170. -/
def decodeFrame (raw : List Byte) (rssi : U16) (resetAllowed : Bool) : Except LocalFail Instr :=
  match frmDec raw with
  | .ok f => .ok (frameInstr f.type f.payload f.tag rssi resetAllowed)
  | .error e => .error e

/-! The encoders (R60 to R64, R70). -/

/-- The words of an instruction: for a command its byte string (R60), for a frame type the frame (R70). -/
def encode : Instr → List Byte
  | .aesEnc key blk => [0x01] ++ key.toList ++ blk.toList
  | .aesDec key blk => [0x02] ++ key.toList ++ blk.toList
  | .cmacTag key msg => [0x10] ++ key.toList ++ varBytes msg
  | .micPlain key msg => [0x11] ++ key.toList ++ varBytes msg
  | .micData key cnt dir addr msg => [0x12] ++ key.toList ++ le32 cnt ++ [dir] ++ addr.toList ++ varBytes msg
  | .micCheck key cnt dir addr mic msg =>
      [0x13] ++ key.toList ++ le32 cnt ++ [dir] ++ addr.toList ++ mic.toList ++ varBytes msg
  | .ctrApply key cnt dir addr data => [0x20] ++ key.toList ++ le32 cnt ++ [dir] ++ addr.toList ++ varBytes data
  | .kdfDerive flavor root joinNonce netId devNonce =>
      [0x30] ++ [flavor] ++ root.toList ++ joinNonce.toList ++ netId.toList ++ devNonce.toList
  | .frmDec raw => [0x40] ++ varBytes raw
  | .frmEnc type payload tag => [0x41] ++ [type] ++ varBytes payload ++ tag.toList
  | .macDec payload => [0x42] ++ varBytes payload
  | .macEnc addr flags fcnt16 opts hasPort port app =>
      [0x43] ++ addr.toList ++ [flags] ++ le16 fcnt16 ++ varBytes opts ++ [flagByte hasPort] ++ [port] ++ varBytes app
  | .jreqDec payload => [0x44] ++ varBytes payload
  | .jaccEnc joinNonce netId addr settings rxDelay =>
      [0x45] ++ joinNonce.toList ++ netId.toList ++ addr.toList ++ [settings] ++ [rxDelay]
  | .fcntCand wire16 stored resetAllowed => [0x50] ++ le16 wire16 ++ le32 stored ++ [flagByte resetAllowed]
  | .fcntClass acc stored => [0x51] ++ le32 acc ++ le32 stored
  | .rxFrame raw rssi resetAllowed => [0x60] ++ varBytes raw ++ le16 rssi ++ [flagByte resetAllowed]
  | .sessLoad addr appSKey nwkSKey up down =>
      [0x70] ++ addr.toList ++ appSKey.toList ++ nwkSKey.toList ++ le32 up ++ le32 down
  | .cfgSet cfg => [0x71] ++ [cfg]
  | .typeJoinRequest payload tag _ _ => frmEnc 0x00 payload tag
  | .typeJoinAccept payload tag _ _ => frmEnc 0x20 payload tag
  | .typeUnconfirmedUp payload tag _ _ => frmEnc 0x40 payload tag
  | .typeUnconfirmedDown payload tag _ _ => frmEnc 0x60 payload tag
  | .typeConfirmedUp payload tag _ _ => frmEnc 0x80 payload tag
  | .typeConfirmedDown payload tag _ _ => frmEnc 0xA0 payload tag

/-! The opcode table's view of the decoder. -/

/-- No command is longer than this: MAC.ENC with two `var` operands of 255 bytes, as far as the layout goes. -/
def longestCommand : Nat := 522

/-- The first `nbits` bits of an instruction whose bits are `w`, as the table numbers them: byte 0 is bits 7:0. -/
def tableBytes (nbits w : Nat) : List Byte := (List.range (nbits / 8)).map fun k => BitVec.ofNat 8 (w / 2 ^ (8 * k))

/-- Those bytes with the bytes above them zero, up to the longest instruction. -/
def paddedBytes (nbits w : Nat) : List Byte := tableBytes nbits w ++ zeros longestCommand

/-- Those bytes as a received frame: the shortest frame (R70) where they are fewer, the bytes above them zero. -/
def paddedFrame (nbits w : Nat) : List Byte := tableBytes nbits w ++ zeros (frameMin - nbits / 8)

/-- What the decoders read from the bits of a row of spec/opcode_table.json: a command, or, where the first byte is no
opcode, a frame. Bytes 0x20, 0x40 and 0x60 stand for two rows each, an opcode and a type byte; on the host's interface
such a byte is the opcode (R62; notes/assumptions/7.md). -/
def decodeTableWord (nbits w : Nat) : Option Instr :=
  match decodeStream (paddedBytes nbits w) with
  | .ok (i, _) => some i
  | .error (.unknownOpcode _) =>
    match decodeFrame (paddedFrame nbits w) 0 false with
    | .ok i => some i
    | .error _ => none
  | .error _ => none

/-- The command by which the host issues that same instruction: its own bytes for a command, RX.FRAME with the frame
as its `raw` for a frame (R267), the bytes as they stand where they are neither. -/
def tableCommand (nbits w : Nat) : List Byte :=
  match decodeStream (paddedBytes nbits w) with
  | .ok (_, rest) => (paddedBytes nbits w).take ((paddedBytes nbits w).length - rest.length)
  | .error (.unknownOpcode _) =>
    match decodeFrame (paddedFrame nbits w) 0 false with
    | .ok _ => encode (.rxFrame (paddedFrame nbits w) 0 false)
    | .error _ => tableBytes nbits w
  | .error _ => tableBytes nbits w

end Sys2Proof
end

