-- ==== Sys2Proof/Machine/State.lean ====
section
/-! DEFINITION. The state of the block (spec/10_state.md R13 to R24), its input and output as plain data
(spec/30_encoding.md R60, R61, spec/60_exceptions.md R268, spec/70_reset_and_hazards.md R300), what stops a step, and
the state after reset. -/

namespace Sys2Proof.Machine

/-- What the host does at one step (R22, R300): it issues a command, as the byte string of R60, or lets the block go
on. -/
inductive HostMove where
  | issue (bytes : List Byte)
  | wait
  deriving DecidableEq, Repr

/-- The whole state. The block has no registers, no program counter and no addressable memory (R10, R11, R20): every
element is a field of its own. Of `host`, `response`, `events`, `draws` and `drawCount`, the block's side of its
interface, notes/assumptions/2.md and 4.md say how they stand to the spec. -/
structure State where
  /-- R13: `S.IDENT`, read-only. -/
  ident : Identity
  /-- R14: `S.DEVADDR`, `S.APPSKEY`, `S.NWKSKEY`, `S.FCNTUP`, `S.FCNTDOWN`. -/
  session : Session
  /-- R15: `S.SESSION_VALID`. -/
  sessionValid : Bool
  /-- R16: `S.JOIN_EN`. -/
  joinEn : Bool
  /-- R17: `S.DELIVER_EN`. -/
  deliverEn : Bool
  /-- R61: the response of the last command, byte 0 first; empty for a command that has none. -/
  response : List Byte
  /-- R24, R268: the pending events, oldest first: those of the last command whose calls have not returned. The head
  is the one whose collaborator is running. -/
  events : List Event
  /-- R21: draws that the environment has supplied beforehand, the next one first. -/
  draws : List Bytes3
  /-- R21: how many draws have been taken beyond those supplied (the model's own counter for the free value
  `Config.freeNonce`). -/
  drawCount : Nat
  /-- What the host does from here on, one move a step. -/
  host : List HostMove
  deriving DecidableEq, Repr

/-- The block has no trap and no fault (spec/60_exceptions.md, opening words; R260): every rejection of a frame is a
silent drop, which is a next state, and misuse by the host is a refusal. Nobody raises a fault: safe. -/
inductive Fault where
  deriving DecidableEq, Repr

/-- R266: the refusals, all of them. A refused command has no meaning: the machine stops, safe. -/
inductive Refusal where
  /-- Raised by `exec`'s arm of an instruction without a meaning; there is none left. Safe. -/
  | notModelled (mnemonic : String)
  /-- R266 row 1 and the `flag` bytes of row 2: raised by `step` for bytes that are no command. Safe. -/
  | malformed (e : DecodeError)
  /-- R266 rows 2 to 5: raised by the meanings for operands that the command excludes. Safe. -/
  | illFormed (e : IllFormed)
  /-- R266 row 6, R300: raised by `step` for a command issued while an event has not returned. Safe. -/
  | busy
  deriving DecidableEq, Repr

/-- What a meaning gives. -/
abbrev Out := Host.Outcome State Fault Refusal

/-- R24, R290: the state after reset. The identity and the device address are the model's arguments, the session keys
and counters are free values (Config.lean), the three control bits are 0, no event is pending; no response has been
given, no draw supplied, and the host has done nothing yet. -/
def State.reset : State :=
  { ident := { devEui := Config.identDevEui, appEui := Config.identAppEui, rootKey := Config.identRootKey }
    session :=
      { devAddr := Config.devAddrInit
        appSKey := Config.appSKeyAtReset
        nwkSKey := Config.nwkSKeyAtReset
        fcntUp := Config.fcntUpAtReset
        fcntDown := Config.fcntDownAtReset }
    sessionValid := false
    joinEn := false
    deliverEn := false
    response := []
    events := []
    draws := []
    drawCount := 0
    host := [] }

end Sys2Proof.Machine
end

