-- ==== Sys2Proof/Machine/Ops.lean ====
section
/-! DEFINITION. The named operations over the state, and the outcomes that the commands share: a response, FAIL, the
refusal of ill-formed operands, the silent drop (this block's one exception: spec/60_exceptions.md R260, R264) and the
return of an event (R274). -/

namespace Sys2Proof.Machine

/-- R61: the response of the command. -/
def State.respond (s : State) (bytes : List Byte) : State := { s with response := bytes }

/-- R268: the command's events, in order, after those that are pending. -/
def State.raise (s : State) (evs : List Event) : State := { s with events := s.events ++ evs }

/-- R22, R274: the block is busy until the last event of a command has returned. -/
def State.busy (s : State) : Bool := !s.events.isEmpty

/-- R274, R301: the event whose collaborator is running returns; nothing else changes. -/
def State.returnEvent (s : State) : State := { s with events := s.events.tail }

/-- The host's move has been taken. -/
def State.withHost (s : State) (moves : List HostMove) : State := { s with host := moves }

/-- `S.FCNTUP <- v`. -/
def State.withFcntUp (s : State) (v : U32) : State := { s with session := { s.session with fcntUp := v } }

/-- R206, R240: `S.FCNTDOWN <- (S.FCNTDOWN + 1) mod 2^32`. -/
def State.bumpFcntDown (s : State) : State :=
  { s with session := { s.session with fcntDown := s.session.fcntDown + 1 } }

/-- R227, R250: the session record is replaced and is valid from then on. -/
def State.withSession (s : State) (record : Session) : State := { s with session := record, sessionValid := true }

/-- R251: the two enable bits. -/
def State.withEnables (s : State) (join deliver : Bool) : State := { s with joinEn := join, deliverEn := deliver }

/-- R21, R226: `draw(3)`, the next of the draws that the environment has supplied, or a free value. -/
def State.nextDraw (s : State) : Bytes3 :=
  match s.draws with
  | d :: _ => d
  | [] => Config.freeNonce s.drawCount

/-- R21: the draw is consumed. -/
def State.afterDraw (s : State) : State :=
  match s.draws with
  | _ :: ds => { s with draws := ds }
  | [] => { s with drawCount := s.drawCount + 1 }

/-- R61: status OK and the results. -/
def okResponse (results : List Byte) : List Byte := 0x00 :: results

/-- R61, R265: status FAIL and nothing else. -/
def failResponse : List Byte := [0x01]

/-- R266: a command whose operands have an issue is refused and does nothing. -/
def require (issue : Option IllFormed) (k : Out) : Out :=
  match issue with
  | none => k
  | some e => .refused (.illFormed e)

/-- R61: a command that answers OK; it changes no state and raises no event (R18). -/
def reply (results : List Byte) (s : State) : Out := .next (s.respond (okResponse results))

/-- R265: a CHECK command answers OK with its results or a bare FAIL; it changes no state and raises no event. -/
def checkReply (outcome : Except LocalFail (List Byte)) (s : State) : Out :=
  match outcome with
  | .ok results => reply results s
  | .error _ => .next (s.respond failResponse)

/-- R260, R264: the silent drop. The command ends, its response is empty, no event is raised and no state changes. -/
def State.drop (s : State) : State := s.respond []

/-- R61, R260, R262: RX.FRAME's outcome. Its response is empty; the cause of a drop is thrown away. -/
def settle (outcome : Except DropCause State) (s : State) : Out :=
  match outcome with
  | .ok t => .next (t.respond [])
  | .error _ => .next s.drop

end Sys2Proof.Machine
end

