-- ==== Sys2Proof/Machine/CipherCommands.lean ====
section
/-! DEFINITION. The meanings of the cipher commands: AES.ENC, AES.DEC (spec/40_block_cipher.md), CMAC.TAG, MIC.PLAIN,
MIC.DATA, MIC.CHECK (spec/41_cmac.md), CTR.APPLY (spec/42_ctr_cipher.md), KDF.DERIVE (spec/43_key_derivation.md). -/

namespace Sys2Proof.Machine

/-- AES.ENC, R100. -/
def execAesEnc (key blk : Block) (s : State) : Out := reply (aesEnc key blk).toList s

/-- AES.DEC, R110. -/
def execAesDec (key blk : Block) (s : State) : Out := reply (aesDec key blk).toList s

/-- CMAC.TAG, R134. -/
def execCmacTag (key : Block) (msg : List Byte) (s : State) : Out :=
  require (checkMsg msg) (reply (cmac key msg).toList s)

/-- MIC.PLAIN, R136. -/
def execMicPlain (key : Block) (msg : List Byte) (s : State) : Out :=
  require (checkMsg msg) (reply (micPlain key msg).toList s)

/-- MIC.DATA, R138. -/
def execMicData (key : Block) (cnt : U32) (dir : Byte) (addr : Bytes4) (msg : List Byte) (s : State) : Out :=
  require (checkMicData dir msg) (reply (micData key cnt (dirOf dir) addr msg).toList s)

/-- R139: the check of a tag, over exactly 4 bytes. -/
def micCheck (key : Block) (cnt : U32) (dir : Dir) (addr mic : Bytes4) (msg : List Byte) :
    Except LocalFail (List Byte) :=
  if micData key cnt dir addr msg = mic then .ok [] else .error .tagMismatch

/-- MIC.CHECK, R139. -/
def execMicCheck (key : Block) (cnt : U32) (dir : Byte) (addr mic : Bytes4) (msg : List Byte) (s : State) : Out :=
  require (checkMicData dir msg) (checkReply (micCheck key cnt (dirOf dir) addr mic msg) s)

/-- CTR.APPLY, R152. -/
def execCtrApply (key : Block) (cnt : U32) (dir : Byte) (addr : Bytes4) (data : List Byte) (s : State) : Out :=
  require (checkCtr dir data) (reply (varBytes (ctr data cnt addr key (dirOf dir))) s)

/-- KDF.DERIVE, R161. -/
def execKdfDerive (flavor : Byte) (root : Block) (joinNonce netId : Bytes3) (devNonce : Bytes2) (s : State) : Out :=
  require (checkFlavor flavor) (reply (kdf (flavorOf flavor) root joinNonce netId devNonce).toList s)

end Sys2Proof.Machine
end

