-- ==== Sys2Proof/Machine/CodecCommands.lean ====
section
/-! DEFINITION. The meanings of the codec commands FRM.DEC, FRM.ENC, MAC.DEC, MAC.ENC, JREQ.DEC and JACC.ENC
(spec/44_wire_codecs.md); the results are serialised as spec/30_encoding.md R64 lists them. -/

namespace Sys2Proof.Machine

/-- R64: `type:u8, payload:var, tag:b4`. -/
def frameResults (f : Frame) : List Byte := [f.type.toByte] ++ varBytes f.payload ++ f.tag.toList

/-- FRM.DEC, R170. -/
def execFrmDec (raw : List Byte) (s : State) : Out :=
  require (checkRaw raw) (checkReply ((frmDec raw).map frameResults) s)

/-- FRM.ENC, R171; the type byte is not checked. -/
def execFrmEnc (type : Byte) (payload : List Byte) (tag : Bytes4) (s : State) : Out :=
  require (checkFrmEnc payload) (reply (varBytes (frmEnc type payload tag)) s)

/-- R64: `addr:b4, flags:u8, fcnt16:u16le, opts:var, hasPort:flag, port:u8, app:var`; with no port, `port` is 0x00. -/
def macResults (m : MacPayload) : List Byte :=
  m.addr.toList ++ [m.flags] ++ le16 m.fcnt16 ++ varBytes m.opts ++ [flagByte m.port.isSome] ++ [m.port.getD 0x00]
    ++ varBytes m.app

/-- MAC.DEC, R173. -/
def execMacDec (payload : List Byte) (s : State) : Out :=
  require (checkPayload payload) (checkReply ((macDec payload).map macResults) s)

/-- MAC.ENC, R174. -/
def execMacEnc (addr : Bytes4) (flags : Byte) (fcnt16 : U16) (opts : List Byte) (hasPort : Bool) (port : Byte)
    (app : List Byte) (s : State) : Out :=
  require (checkMacEnc addr flags fcnt16 opts hasPort port app)
    (reply (varBytes (macEnc (macOperand addr flags fcnt16 opts hasPort port app))) s)

/-- R64: `appEui:b8, devEui:b8, devNonce:b2`. -/
def joinRequestResults (j : JoinRequest) : List Byte := j.appEui.toList ++ j.devEui.toList ++ j.devNonce.toList

/-- JREQ.DEC, R176. -/
def execJreqDec (payload : List Byte) (s : State) : Out :=
  require (checkPayload payload) (checkReply ((jreqDec payload).map joinRequestResults) s)

/-- JACC.ENC, R177. -/
def execJaccEnc (joinNonce netId : Bytes3) (addr : Bytes4) (settings rxDelay : Byte) (s : State) : Out :=
  reply (varBytes (jaccEnc joinNonce netId addr settings rxDelay)) s

end Sys2Proof.Machine
end

