-- ==== Sys2Proof/Machine/Counter.lean ====
section
/-! DEFINITION. The frame-counter validator's functions (spec/45_frame_counter.md R200, R201, R203). -/

namespace Sys2Proof.Machine

/-- R200: `FcntCand(wire16, stored, resetAllowed)`: (a), (b) and, with the flag, (c). -/
def fcntCand (wire16 : U16) (stored : U32) (resetAllowed : Bool) : List U32 :=
  let hi : U16 := stored.extractLsb' 16 16
  let a : U32 := hi ++ wire16
  let b : U32 := (hi + 1) ++ wire16
  if resetAllowed then [a, b, 0] else [a, b]

/-- R201: `Accept(cands, key, dir, addr, msg, tag)`, the first candidate in order whose tag matches. -/
def accept (cands : List U32) (key : Block) (dir : Dir) (addr : Bytes4) (msg : List Byte) (tag : Bytes4) :
    Option U32 :=
  cands.find? fun c => micData key c dir addr msg = tag

/-- R203: `FcntClass(acc, stored)`, an unsigned comparison. -/
def fcntClass (acc stored : U32) : FreshClass :=
  if acc < stored then .stale else if acc = stored ∧ stored ≠ 0 then .replay else .fresh

/-- R203: the class as FCNT.CLASS answers it. -/
def FreshClass.code : FreshClass → Byte
  | .stale => 0
  | .replay => 1
  | .fresh => 2

end Sys2Proof.Machine
end

