-- ==== Sys2Proof/Machine/CounterCommands.lean ====
section
/-! DEFINITION. The meanings of the counter commands FCNT.CAND and FCNT.CLASS (spec/45_frame_counter.md). -/

namespace Sys2Proof.Machine

/-- R64: `n:u8`, then n times `u32le`. -/
def candidateResults (cands : List U32) : List Byte := BitVec.ofNat 8 cands.length :: cands.flatMap le32

/-- FCNT.CAND, R200. -/
def execFcntCand (wire16 : U16) (stored : U32) (resetAllowed : Bool) (s : State) : Out :=
  reply (candidateResults (fcntCand wire16 stored resetAllowed)) s

/-- FCNT.CLASS, R203. -/
def execFcntClass (acc stored : U32) (s : State) : Out := reply [(fcntClass acc stored).code] s

end Sys2Proof.Machine
end

