-- ==== Sys2Proof/Machine/Flags.lean ====
section
/-! DEFINITION. The transient conditions of RX.FRAME and how each is computed (spec/10_state.md R19,
spec/46_protocol_engine.md R234, R235, R238, R239). They live for one command and are no part of the state; the fourth
condition, the accepted counter `acc`, is passed as a value of its own from the step that finds it (R233). -/

namespace Sys2Proof.Machine

/-- R19: `dirty`, `replay` and `linkcheck`. -/
structure Conditions where
  dirty : Bool
  replay : Bool
  linkcheck : Bool
  deriving DecidableEq, Repr

/-- R19, R220: each starts false. -/
def Conditions.start : Conditions := { dirty := false, replay := false, linkcheck := false }

/-- R202, R234: the condition of the counter reset, on the value of the accepted counter. -/
def resetForced (acc : U32) (resetAllowed : Bool) : Bool := acc == 0 && resetAllowed

/-- R234: the counter reset. -/
def forceReset (acc : U32) (resetAllowed : Bool) (sc : State × Conditions) : State × Conditions :=
  if resetForced acc resetAllowed then (sc.1.withFcntUp 0, { sc.2 with dirty := true }) else sc

/-- R235: freshness, against the stored counter that R234 leaves. -/
def freshness (acc : U32) (sc : State × Conditions) : Except DropCause (State × Conditions) :=
  match fcntClass acc sc.1.session.fcntUp with
  | .stale => .error .stale
  | .replay => .ok (sc.1, { sc.2 with replay := true })
  | .fresh => .ok (sc.1.withFcntUp acc, { sc.2 with dirty := true })

/-- R238: the first byte of a string is the link-check command. -/
def startsLinkCheck (B : List Byte) : Bool :=
  match B with
  | b :: _ => b == linkCheckCid
  | [] => false

/-- R238: a link check, by the first option byte or by the first byte of a port-0 payload, which is plaintext here. -/
def linkCheckSeen (m : MacPayload) : Bool :=
  startsLinkCheck m.opts || (m.port == some 0x00 && startsLinkCheck m.app)

/-- R239: a response is built for the confirmed-uplink type or a link check; `replay` has no part in it. -/
def respondNeeded (type : FrameType) (c : Conditions) : Bool := type == .confirmedUp || c.linkcheck

end Sys2Proof.Machine
end

