-- ==== Sys2Proof/Machine/Engine.lean ====
section
/-! DEFINITION. The protocol engine: the steps of RX.FRAME (spec/46_protocol_engine.md R220 to R244), each a function
named after its rule, in the order in which they run. -/

namespace Sys2Proof.Machine

/-- R269: EMIT of a frame; `len` is the length of `bytes`. -/
def emitFrame (frame : List Byte) (delay : Nat) : Event := .emit frame frame.length delay

/-! The join branch. -/

/-- R227: the session after a join; the address is carried forward. -/
def joinedSession (root : Block) (joinNonce : Bytes3) (devNonce : Bytes2) (old : Session) : Session :=
  { devAddr := old.devAddr
    appSKey := kdf .application root joinNonce netId devNonce
    nwkSKey := kdf .network root joinNonce netId devNonce
    fcntUp := 0
    fcntDown := 0 }

/-- R228: the 32 plaintext bytes `P = body || mic` of a join accept. -/
def joinAcceptPlain (root : Block) (joinNonce : Bytes3) (addr : Bytes4) : List Byte :=
  let body := jaccEnc joinNonce netId addr jaccSettings jaccRxDelay
  body ++ (micPlain root (FrameType.joinAccept.toByte :: body)).toList

/-- R75, R228: the join-accept frame as transmitted, the inverse transform of each of the two blocks. -/
def joinAcceptFrame (root : Block) (joinNonce : Bytes3) (addr : Bytes4) : List Byte :=
  let P := joinAcceptPlain root joinNonce addr
  [FrameType.joinAccept.toByte] ++ (aesDec root (Block.ofBytes (slice P 0 16))).toList
    ++ (aesDec root (Block.ofBytes (slice P 16 32))).toList

/-- R226 to R229: steps 4 to 7 of the join branch; none of them can drop. -/
def completeJoin (devNonce : Bytes2) (s : State) : State :=
  let joinNonce := s.nextDraw
  let t := s.afterDraw.withSession (joinedSession s.ident.rootKey joinNonce devNonce s.session)
  t.raise [emitFrame (joinAcceptFrame t.ident.rootKey joinNonce t.session.devAddr) joinDelayMs,
           .save t.session,
           .joined]

/-- R222 to R225: the join branch, whose drops all come before its first write. -/
def joinPath (f : Frame) (s : State) : Except DropCause State :=
  match jreqDec f.payload with
  | .error _ => .error .joinRequestLength
  | .ok j =>
    if j.appEui ≠ s.ident.appEui ∨ j.devEui ≠ s.ident.devEui then .error .identityMismatch
    else if micPlain s.ident.rootKey (FrameType.joinRequest.toByte :: f.payload) ≠ f.tag then
      .error .joinTagMismatch
    else .ok (completeJoin j.devNonce s)

/-! The data branch. -/

/-- R237: decryption in place, always with the application session key. -/
def decryptApp (m : MacPayload) (acc : U32) (dir : Dir) (record : Session) : MacPayload :=
  if m.app.length > 0 then { m with app := ctr m.app acc record.devAddr record.appSKey dir } else m

/-- R240: `max(0, rssi + 120)`, which R220's precondition keeps within one byte. -/
def marginByte (rssi : U16) : Byte := BitVec.ofNat 8 (rssiValue rssi + marginOffset).toNat

/-- R80: the link-check option of a response. -/
def linkCheckOption (rssi : U16) : List Byte := [linkCheckCid, marginByte rssi, gatewayCount]

/-- R240: the record of a response, with the downlink counter that has just been advanced. -/
def responsePayload (record : Session) (ack linkcheck : Bool) (rssi : U16) : MacPayload :=
  { addr := record.devAddr
    pending := false
    ack := ack
    adrAckReq := false
    adr := false
    fcnt16 := record.fcntDown.setWidth 16
    opts := if linkcheck then linkCheckOption rssi else []
    port := none
    app := [] }

/-- R81, R241: the response frame, tagged with all 32 bits of the new downlink counter. -/
def responseFrame (record : Session) (ack linkcheck : Bool) (rssi : U16) : List Byte :=
  let body := macEnc (responsePayload record ack linkcheck rssi)
  let type := FrameType.unconfirmedDown.toByte
  frmEnc type body (micData record.nwkSKey record.fcntDown .down record.devAddr (type :: body))

/-- R240, R241: the response, when one is needed: the state and the conditions after it, and its EMIT. -/
def answer (type : FrameType) (rssi : U16) (sc : State × Conditions) : (State × Conditions) × List Event :=
  if respondNeeded type sc.2 then
    let t := sc.1.bumpFcntDown
    ((t, { sc.2 with dirty := true }),
     [emitFrame (responseFrame t.session (type == .confirmedUp) sc.2.linkcheck rssi) dataDelayMs])
  else (sc, [])

/-- R242: SAVE exactly when the state became dirty. -/
def saveEvents (sc : State × Conditions) : List Event := if sc.2.dirty then [.save sc.1.session] else []

/-- R243: DELIVER, for a present and non-zero port, no replay, and delivery enabled. -/
def deliverEvents (m : MacPayload) (sc : State × Conditions) : List Event :=
  match m.port with
  | some port => if port ≠ 0x00 ∧ !sc.2.replay ∧ sc.1.deliverEn then [.deliver port m.app m.app.length] else []
  | none => []

/-- R237 to R243: what follows the freshness check; no step of it can drop (R244). -/
def finishData (type : FrameType) (m : MacPayload) (acc : U32) (rssi : U16) (sc : State × Conditions) : State :=
  let m := decryptApp m acc type.dir sc.1.session
  let sc := (sc.1, { sc.2 with linkcheck := linkCheckSeen m })
  let (sc, emits) := answer type rssi sc
  sc.1.raise (emits ++ saveEvents sc ++ deliverEvents m sc)

/-- R231 to R243: the data branch once the frame's MAC payload has decoded. -/
def dataSteps (f : Frame) (m : MacPayload) (rssi : U16) (resetAllowed : Bool) (s : State) : Except DropCause State :=
  if m.addr ≠ s.session.devAddr then .error .addressMismatch
  else
    match accept (fcntCand m.fcnt16 s.session.fcntUp resetAllowed) s.session.nwkSKey f.type.dir s.session.devAddr
        (f.type.toByte :: f.payload) f.tag with
    | none => .error .dataTagMismatch
    | some acc =>
      match freshness acc (forceReset acc resetAllowed (s, Conditions.start)) with
      | .error cause => .error cause
      | .ok sc => .ok (finishData f.type m acc rssi sc)

/-- R230, R231: the data branch. -/
def dataPath (f : Frame) (rssi : U16) (resetAllowed : Bool) (s : State) : Except DropCause State :=
  if !s.sessionValid then .error .noSession
  else
    match macDec f.payload with
    | .error _ => .error .optsExceedBuffer
    | .ok m => dataSteps f m rssi resetAllowed s

/-- R221: dispatch on the type. -/
def dispatchFrame (f : Frame) (rssi : U16) (resetAllowed : Bool) (s : State) : Except DropCause State :=
  match f.type with
  | .joinRequest => if s.joinEn then joinPath f s else .error .joinNotEnabled
  | .joinAccept => .error .inboundJoinAccept
  | .unconfirmedUp => dataPath f rssi resetAllowed s
  | .unconfirmedDown => dataPath f rssi resetAllowed s
  | .confirmedUp => dataPath f rssi resetAllowed s
  | .confirmedDown => dataPath f rssi resetAllowed s

/-- R261: the cause that a failure of the outer decoder is. -/
def frameDropCause : LocalFail → DropCause
  | .unsupportedType => .unsupportedType
  | .lengthOutOfBounds => .frameLength
  | .optsExceedBuffer => .frameLength
  | .tagMismatch => .frameLength

/-- R220: one inbound frame, from its bytes. -/
def receive (raw : List Byte) (rssi : U16) (resetAllowed : Bool) (s : State) : Except DropCause State :=
  match frmDec raw with
  | .error e => .error (frameDropCause e)
  | .ok f => dispatchFrame f rssi resetAllowed s

/-- R220: the precondition on `rssi` comes before every step of the reception. -/
def runFrame (raw : List Byte) (rssi : U16) (resetAllowed : Bool) (s : State) : Out :=
  require (checkRssi rssi) (settle (receive raw rssi resetAllowed s) s)

end Sys2Proof.Machine
end

