-- ==== Sys2Proof/Machine/EngineCommands.lean ====
section
/-! DEFINITION. The meanings of RX.FRAME, SESS.LOAD and CFG.SET (spec/46_protocol_engine.md R220, R250, R251). Their
response is empty (spec/30_encoding.md R61). -/

namespace Sys2Proof.Machine

/-- RX.FRAME, R220. -/
def execRxFrame (raw : List Byte) (rssi : U16) (resetAllowed : Bool) (s : State) : Out :=
  require (checkRaw raw) (runFrame raw rssi resetAllowed s)

/-- SESS.LOAD, R250. -/
def execSessLoad (addr : Bytes4) (appSKey nwkSKey : Block) (up down : U32) (s : State) : Out :=
  .next ((s.withSession
    { devAddr := addr, appSKey := appSKey, nwkSKey := nwkSKey, fcntUp := up, fcntDown := down }).respond [])

/-- CFG.SET, R251: bit 0 is JOIN_EN, bit 1 is DELIVER_EN. -/
def execCfgSet (cfg : Byte) (s : State) : Out :=
  require (checkCfg cfg) (.next ((s.withEnables (cfg.getLsbD 0) (cfg.getLsbD 1)).respond []))

end Sys2Proof.Machine
end

