-- ==== Sys2Proof/Machine/FrameTypes.lean ====
section
/-! DEFINITION. The meanings of the six frame types (spec/30_encoding.md R71, spec/46_protocol_engine.md R221): what
the reception of a frame of that type does, the frame being the type byte, the payload and the tag (R70). -/

namespace Sys2Proof.Machine

/-- TYPE.JOIN_REQUEST, R222: the join branch if `S.JOIN_EN`, else a drop. -/
def execTypeJoinRequest (payload : List Byte) (tag : Bytes4) (rssi : U16) (resetAllowed : Bool) (s : State) : Out :=
  runFrame (frmEnc FrameType.joinRequest.toByte payload tag) rssi resetAllowed s

/-- TYPE.JOIN_ACCEPT, R221: a drop. -/
def execTypeJoinAccept (payload : List Byte) (tag : Bytes4) (rssi : U16) (resetAllowed : Bool) (s : State) : Out :=
  runFrame (frmEnc FrameType.joinAccept.toByte payload tag) rssi resetAllowed s

/-- TYPE.UNCONFIRMED_UP, R230: the data branch, direction 0. -/
def execTypeUnconfirmedUp (payload : List Byte) (tag : Bytes4) (rssi : U16) (resetAllowed : Bool) (s : State) : Out :=
  runFrame (frmEnc FrameType.unconfirmedUp.toByte payload tag) rssi resetAllowed s

/-- TYPE.UNCONFIRMED_DOWN, R230: the data branch, direction 1. -/
def execTypeUnconfirmedDown (payload : List Byte) (tag : Bytes4) (rssi : U16) (resetAllowed : Bool) (s : State) :
    Out :=
  runFrame (frmEnc FrameType.unconfirmedDown.toByte payload tag) rssi resetAllowed s

/-- TYPE.CONFIRMED_UP, R230, R239: the data branch, direction 0, and a response with the ack flag. -/
def execTypeConfirmedUp (payload : List Byte) (tag : Bytes4) (rssi : U16) (resetAllowed : Bool) (s : State) : Out :=
  runFrame (frmEnc FrameType.confirmedUp.toByte payload tag) rssi resetAllowed s

/-- TYPE.CONFIRMED_DOWN, R230: the data branch, direction 1, no response for the type alone. -/
def execTypeConfirmedDown (payload : List Byte) (tag : Bytes4) (rssi : U16) (resetAllowed : Bool) (s : State) : Out :=
  runFrame (frmEnc FrameType.confirmedDown.toByte payload tag) rssi resetAllowed s

end Sys2Proof.Machine
end

