-- ==== Sys2Proof/Machine/Dispatch.lean ====
section
/-! DEFINITION. One arm per instruction, each a direct call of its meaning. -/

namespace Sys2Proof.Machine

def exec (i : Instr) (s : State) : Host.Outcome State Fault Refusal :=
  match i with
  | .aesEnc key blk => Sys2Proof.Machine.execAesEnc key blk s
  | .aesDec key blk => Sys2Proof.Machine.execAesDec key blk s
  | .cmacTag key msg => Sys2Proof.Machine.execCmacTag key msg s
  | .micPlain key msg => Sys2Proof.Machine.execMicPlain key msg s
  | .micData key cnt dir addr msg => Sys2Proof.Machine.execMicData key cnt dir addr msg s
  | .micCheck key cnt dir addr mic msg => Sys2Proof.Machine.execMicCheck key cnt dir addr mic msg s
  | .ctrApply key cnt dir addr data => Sys2Proof.Machine.execCtrApply key cnt dir addr data s
  | .kdfDerive flavor root joinNonce netId devNonce => Sys2Proof.Machine.execKdfDerive flavor root joinNonce netId devNonce s
  | .frmDec raw => Sys2Proof.Machine.execFrmDec raw s
  | .frmEnc type payload tag => Sys2Proof.Machine.execFrmEnc type payload tag s
  | .macDec payload => Sys2Proof.Machine.execMacDec payload s
  | .macEnc addr flags fcnt16 opts hasPort port app => Sys2Proof.Machine.execMacEnc addr flags fcnt16 opts hasPort port app s
  | .jreqDec payload => Sys2Proof.Machine.execJreqDec payload s
  | .jaccEnc joinNonce netId addr settings rxDelay => Sys2Proof.Machine.execJaccEnc joinNonce netId addr settings rxDelay s
  | .fcntCand wire16 stored resetAllowed => Sys2Proof.Machine.execFcntCand wire16 stored resetAllowed s
  | .fcntClass acc stored => Sys2Proof.Machine.execFcntClass acc stored s
  | .rxFrame raw rssi resetAllowed => Sys2Proof.Machine.execRxFrame raw rssi resetAllowed s
  | .sessLoad addr appSKey nwkSKey up down => Sys2Proof.Machine.execSessLoad addr appSKey nwkSKey up down s
  | .cfgSet cfg => Sys2Proof.Machine.execCfgSet cfg s
  | .typeJoinRequest payload tag rssi resetAllowed => Sys2Proof.Machine.execTypeJoinRequest payload tag rssi resetAllowed s
  | .typeJoinAccept payload tag rssi resetAllowed => Sys2Proof.Machine.execTypeJoinAccept payload tag rssi resetAllowed s
  | .typeUnconfirmedUp payload tag rssi resetAllowed => Sys2Proof.Machine.execTypeUnconfirmedUp payload tag rssi resetAllowed s
  | .typeUnconfirmedDown payload tag rssi resetAllowed => Sys2Proof.Machine.execTypeUnconfirmedDown payload tag rssi resetAllowed s
  | .typeConfirmedUp payload tag rssi resetAllowed => Sys2Proof.Machine.execTypeConfirmedUp payload tag rssi resetAllowed s
  | .typeConfirmedDown payload tag rssi resetAllowed => Sys2Proof.Machine.execTypeConfirmedDown payload tag rssi resetAllowed s

end Sys2Proof.Machine
end

