-- ==== Sys2Proof/Machine/Issue.lean ====
section
/-! DEFINITION. What the block does with a move of the host (spec/10_state.md R22, spec/60_exceptions.md R266, R274,
spec/70_reset_and_hazards.md R300): the operations that `step` is made of. -/

namespace Sys2Proof.Machine

/-- R60, R266 row 1: a command that has been issued is decoded and runs to completion. -/
def runCommand (bytes : List Byte) (s : State) : Out :=
  match decode bytes with
  | .ok i => exec i s
  | .error e => .refused (.malformed e)

/-- R300: a command issued while the block is busy is refused; otherwise it runs. -/
def issueCommand (bytes : List Byte) (s : State) : Out :=
  if s.busy then .refused .busy else runCommand bytes s

/-- The next step of the machine. Without a command the event at the head returns, and an idle block does nothing
(R267). -/
def takeStep (s : State) : Out :=
  match s.host with
  | .issue bytes :: moves => issueCommand bytes (s.withHost moves)
  | .wait :: moves => .next (s.withHost moves).returnEvent
  | [] => .next s.returnEvent

/-- The host issues a command at the very next step, to a block that is idle. -/
def State.withCommand (s : State) (bytes : List Byte) : State :=
  { s with events := [], host := .issue bytes :: s.host }

end Sys2Proof.Machine
end

