-- ==== Sys2Proof/Machine/Step.lean ====
section
/-! DEFINITION. One step of the machine, and the placing of an instruction where the next step takes it. The block
fetches nothing (spec/10_state.md R11): its "program" is the sequence of commands that the host issues
(notes/assumptions/2.md). -/

namespace Sys2Proof.Machine

/-- One step: the host's move, or the return of the event whose collaborator is running. -/
def step (s : State) : Host.Outcome State Fault Refusal := takeStep s

/-- `s` with the instruction of a row of spec/opcode_table.json issued at the next step: the host's next move is the
command of those bits (`tableCommand`), and no event is pending, since a busy block would refuse it (R300). -/
def State.withFetchWord (s : State) (nbits w : Nat) : State := s.withCommand (tableCommand nbits w)

end Sys2Proof.Machine
end

