-- ==== Sys2Proof/Safety.lean ====
section
/-! DEFINITION. What a good state and a good run are, in the terms that the statements use: the event sequences that
spec/60_exceptions.md R273 allows, the invariant of the pending events (R268 to R273, spec/20_memory.md R50), two
states that agree on all but the session (spec/10_state.md R25), and the number that a block is read as (R8). -/

namespace Sys2Proof.Machine

/-- R271: a DELIVER whose port is not 0 and whose length is that of its payload, at most 51 bytes (R268). -/
def goodDeliver (port : Byte) (payload : List Byte) (len : Nat) : Bool :=
  port != 0x00 && len == payload.length && decide (payload.length ≤ 51)

/-- R273: what may come after the SAVE of the data branch. -/
def dataTail : List Event → Bool
  | [] => true
  | [.deliver port payload len] => goodDeliver port payload len
  | _ => false

/-- R273: the event sequences of one RX.FRAME. -/
def legalSequence : List Event → Bool
  | [] => true
  | [.emit bytes len delay, .save _, .joined] => len == 33 && bytes.length == 33 && delay == 5000
  | .emit bytes len delay :: .save _ :: rest =>
    (len == 12 || len == 15) && bytes.length == len && delay == 1000 && dataTail rest
  | .save _ :: rest => dataTail rest
  | _ => false

/-- R273, R274: what can be left of such a sequence after some of its events have returned. -/
def legalPending (evs : List Event) : Bool :=
  legalSequence evs ||
    match evs with
    | [.save _, .joined] => true
    | [.joined] => true
    | [.deliver port payload len] => goodDeliver port payload len
    | _ => false

/-- The invariant of the pending events: they are what is left of a legal sequence, and a pending SAVE carries the
session as it is, which is valid (R50, R270: no state is written between events). -/
def State.EventsInv (s : State) : Prop :=
  legalPending s.events = true ∧ ∀ record, Event.save record ∈ s.events → record = s.session ∧ s.sessionValid = true

/-- R25: two states that are unjoined and differ at most in the session keys and the two counters. -/
def sameWhileUnjoined (s t : State) : Prop :=
  s.sessionValid = false ∧ t.sessionValid = false ∧ s.session.devAddr = t.session.devAddr ∧
    t = { s with session := t.session }

/-- R25: what one step of two such states may differ in: nothing, once a session exists, and the four elements as
before otherwise; and the same stop. -/
def sameOutcomeWhileUnjoined : Out → Out → Prop
  | .next s, .next t => s = t ∨ sameWhileUnjoined s t
  | .fault e, .fault e' => e = e'
  | .refused r, .refused r' => r = r'
  | _, _ => False

/-- R8: a byte string read as a number, byte 0 most significant. -/
def bytesValue (B : List Byte) : Nat := B.foldl (fun n b => 256 * n + b.toNat) 0

/-- R8, R131: a 16-byte block read as a 128-bit integer with byte 0 most significant. -/
def blockValue (B : Block) : Nat := bytesValue B.toList

end Sys2Proof.Machine
end

