-- ==== Sys2Proof/Certificates/Slice0/Obligations.lean ====
section
/-! DEFINITION. The statements for the provers. A response is written out as bytes: 0x00 (OK) and the results, or
0x01 (FAIL). `.next { s with … }` says the whole next state: the fields named, and every other as in `s`. -/

open Sys2Proof Sys2Proof.Machine

/-! The block cipher (spec/40_block_cipher.md). -/

/-- R103: the table of the S-box is the affine image of the inverse in GF(2^8), with the three values the rule gives,
and the inverse table undoes it (R111). -/
def Obligations.SboxFollowsItsDefinition : Prop :=
  (∀ a : Byte, ∃ b : Byte, (if a = 0 then b = 0 else gmul a b = 1) ∧
    sbox a = b ^^^ b.rotateLeft 1 ^^^ b.rotateLeft 2 ^^^ b.rotateLeft 3 ^^^ b.rotateLeft 4 ^^^ 0x63 ∧
    invSbox (sbox a) = a) ∧
  sbox 0x00 = 0x63 ∧ sbox 0x53 = 0xED ∧ sbox 0xFF = 0x16 ∧ invSbox 0x63 = 0x00 ∧ invSbox 0x00 = 0x52

/-- R104: the recurrence of the 44 words, four to a round key, for every key, with the rule's example. -/
def Obligations.KeyExpansionFollowsTheRecurrence : Prop :=
  (∀ key : Block, ∃ w : Nat → Bytes4,
    (∀ r, r ≤ 10 → roundKey key r = ⟨w (4 * r), w (4 * r + 1), w (4 * r + 2), w (4 * r + 3)⟩) ∧
    roundKey key 0 = key ∧
    ∀ i, 4 ≤ i → i ≤ 43 →
      w i = (w (i - 4)).xor
        (if i % 4 = 0 then
          let t := w (i - 1)
          ⟨sbox t.b1 ^^^ [0x01, 0x02, 0x04, 0x08, 0x10, 0x20, 0x40, 0x80, 0x1b, 0x36].getD (i / 4 - 1) 0,
            sbox t.b2, sbox t.b3, sbox t.b0⟩
        else w (i - 1))) ∧
  roundKey ⟨⟨0x2b, 0x7e, 0x15, 0x16⟩, ⟨0x28, 0xae, 0xd2, 0xa6⟩, ⟨0xab, 0xf7, 0x15, 0x88⟩, ⟨0x09, 0xcf, 0x4f, 0x3c⟩⟩ 1 =
    ⟨⟨0xa0, 0xfa, 0xfe, 0x17⟩, ⟨0x88, 0x54, 0x2c, 0xb1⟩, ⟨0x23, 0xa3, 0x39, 0x39⟩, ⟨0x2a, 0x6c, 0x76, 0x05⟩⟩ ∧
  roundKey ⟨⟨0x2b, 0x7e, 0x15, 0x16⟩, ⟨0x28, 0xae, 0xd2, 0xa6⟩, ⟨0xab, 0xf7, 0x15, 0x88⟩, ⟨0x09, 0xcf, 0x4f, 0x3c⟩⟩ 10 =
    ⟨⟨0xd0, 0x14, 0xf9, 0xa8⟩, ⟨0xc9, 0xee, 0x25, 0x89⟩, ⟨0xe1, 0x3f, 0x0c, 0xc8⟩, ⟨0xb6, 0x63, 0x0c, 0xa6⟩⟩

/-- R105, R106, R112, R107, R113, R108, R114: the round steps on the bytes of a block, byte `r + 4c` being row `r` of
column `c`, for every block: AddRoundKey is the bytewise XOR and its own inverse, SubBytes and InvSubBytes are the two
tables on every byte; the two moves of the rows and the two mixes of the columns; the two inverse steps undo the forward
ones; and the example of R108. -/
def Obligations.RoundStepsOnBytes : Prop :=
  (∀ (s rk : Block) (k : Nat), k < 16 →
    (addRoundKey s rk).toList.getD k 0 = s.toList.getD k 0 ^^^ rk.toList.getD k 0 ∧
    (subBytes s).toList.getD k 0 = sbox (s.toList.getD k 0) ∧
    (invSubBytes s).toList.getD k 0 = invSbox (s.toList.getD k 0)) ∧
  (∀ s rk : Block, addRoundKey (addRoundKey s rk) rk = s) ∧
  (∀ (s : Block) (r c : Nat), r < 4 → c < 4 →
    (shiftRows s).toList[r + 4 * c]? = s.toList[r + 4 * ((c + r) % 4)]? ∧
    (invShiftRows s).toList[r + 4 * ((c + r) % 4)]? = s.toList[r + 4 * c]?) ∧
  (∀ (s : Block) (c : Nat), c < 4 →
    let a (k : Nat) : Byte := s.toList.getD (4 * c + k) 0
    let o (k : Nat) : Byte := (mixColumns s).toList.getD (4 * c + k) 0
    let o' (k : Nat) : Byte := (invMixColumns s).toList.getD (4 * c + k) 0
    o 0 = gmul (a 0) 2 ^^^ gmul (a 1) 3 ^^^ a 2 ^^^ a 3 ∧
    o 1 = a 0 ^^^ gmul (a 1) 2 ^^^ gmul (a 2) 3 ^^^ a 3 ∧
    o 2 = a 0 ^^^ a 1 ^^^ gmul (a 2) 2 ^^^ gmul (a 3) 3 ∧
    o 3 = gmul (a 0) 3 ^^^ a 1 ^^^ a 2 ^^^ gmul (a 3) 2 ∧
    o' 0 = gmul (a 0) 14 ^^^ gmul (a 1) 11 ^^^ gmul (a 2) 13 ^^^ gmul (a 3) 9 ∧
    o' 1 = gmul (a 0) 9 ^^^ gmul (a 1) 14 ^^^ gmul (a 2) 11 ^^^ gmul (a 3) 13 ∧
    o' 2 = gmul (a 0) 13 ^^^ gmul (a 1) 9 ^^^ gmul (a 2) 14 ^^^ gmul (a 3) 11 ∧
    o' 3 = gmul (a 0) 11 ^^^ gmul (a 1) 13 ^^^ gmul (a 2) 9 ^^^ gmul (a 3) 14) ∧
  (∀ s : Block, invShiftRows (shiftRows s) = s ∧ invMixColumns (mixColumns s) = s) ∧
  mixColumns ⟨⟨0xdb, 0x13, 0x53, 0x45⟩, ⟨0xf2, 0x0a, 0x22, 0x5c⟩, ⟨1, 1, 1, 1⟩, ⟨0xc6, 0xc6, 0xc6, 0xc6⟩⟩ =
    ⟨⟨0x8e, 0x4d, 0xa1, 0xbc⟩, ⟨0x9f, 0xdc, 0x58, 0x9d⟩, ⟨1, 1, 1, 1⟩, ⟨0xc6, 0xc6, 0xc6, 0xc6⟩⟩

/-- R109, R115: the ten rounds of each transform, in the order of the rules and with their round keys; and the forward
transform is a bijection for every key. -/
def Obligations.RoundsRunInOrder : Prop :=
  ∀ key : Block,
    (∀ blk : Block,
      aesEnc key blk =
        let s := [1, 2, 3, 4, 5, 6, 7, 8, 9].foldl
          (fun s r => addRoundKey (mixColumns (shiftRows (subBytes s))) (roundKey key r))
          (addRoundKey blk (roundKey key 0))
        addRoundKey (shiftRows (subBytes s)) (roundKey key 10)) ∧
    (∀ blk : Block,
      aesDec key blk =
        let s := [9, 8, 7, 6, 5, 4, 3, 2, 1].foldl
          (fun s r => invMixColumns (addRoundKey (invSubBytes (invShiftRows s)) (roundKey key r)))
          (addRoundKey blk (roundKey key 10))
        addRoundKey (invSubBytes (invShiftRows s)) (roundKey key 0)) ∧
    Function.Bijective (aesEnc key)

/-- R116 (an inference the spec draws from R105 to R115): the two transforms are mutual inverses for every key. -/
def Obligations.AesTransformsAreInverse : Prop :=
  ∀ key blk : Block, aesDec key (aesEnc key blk) = blk ∧ aesEnc key (aesDec key blk) = blk

/-- R100, R110, R18: AES.ENC and AES.DEC answer OK on every key and block and change nothing but the response; and each
recovers what the other was given, which is R116, an inference the spec draws from R105 to R115. -/
def Obligations.AesCommandsAnswerAndRecover : Prop :=
  ∀ (key blk : Block) (s : State),
    exec (.aesEnc key blk) s = .next { s with response := 0x00 :: (aesEnc key blk).toList } ∧
    exec (.aesDec key blk) s = .next { s with response := 0x00 :: (aesDec key blk).toList } ∧
    exec (.aesDec key (aesEnc key blk)) s = .next { s with response := 0x00 :: blk.toList } ∧
    exec (.aesEnc key (aesDec key blk)) s = .next { s with response := 0x00 :: blk.toList }

/-! The CMAC and the tags (spec/41_cmac.md). -/

/-- R131: the doubling step on the 128-bit number that a block is read as, with the rule's corner cases. -/
def Obligations.DoublingActsOnTheNumber : Prop :=
  (∀ B : Block, blockValue (dbl B) =
    if blockValue B < 2 ^ 127 then 2 * blockValue B else (2 * blockValue B - 2 ^ 128) ^^^ 0x87) ∧
  dbl zeroBlock = zeroBlock ∧
  dbl ⟨⟨0x80, 0, 0, 0⟩, ⟨0, 0, 0, 0⟩, ⟨0, 0, 0, 0⟩, ⟨0, 0, 0, 0⟩⟩ =
    ⟨⟨0, 0, 0, 0⟩, ⟨0, 0, 0, 0⟩, ⟨0, 0, 0, 0⟩, ⟨0, 0, 0, 0x87⟩⟩ ∧
  dbl ⟨⟨0xFF, 0xFF, 0xFF, 0xFF⟩, ⟨0xFF, 0xFF, 0xFF, 0xFF⟩, ⟨0xFF, 0xFF, 0xFF, 0xFF⟩, ⟨0xFF, 0xFF, 0xFF, 0xFF⟩⟩ =
    ⟨⟨0xFF, 0xFF, 0xFF, 0xFF⟩, ⟨0xFF, 0xFF, 0xFF, 0xFF⟩, ⟨0xFF, 0xFF, 0xFF, 0xFF⟩, ⟨0xFF, 0xFF, 0xFF, 0x79⟩⟩

/-- R133, R134: the chain from any running state, by the message's length: a complete last block takes K1, a partial or
empty one is padded and takes K2, and a whole block with more behind it is absorbed first. -/
def Obligations.CmacChainsBlockByBlock : Prop :=
  (∀ (key X : Block) (msg : List Byte), msg.length = 16 →
    cmacFrom key X msg = aesEnc key (X.xor ((Block.ofBytes msg).xor (dbl (aesEnc key zeroBlock))))) ∧
  (∀ (key X : Block) (msg : List Byte), msg.length < 16 →
    cmacFrom key X msg = aesEnc key (X.xor
      ((Block.ofBytes (msg ++ 0x80 :: List.replicate (15 - msg.length) 0)).xor (dbl (dbl (aesEnc key zeroBlock)))))) ∧
  (∀ (key X : Block) (head rest : List Byte), head.length = 16 → rest ≠ [] →
    cmacFrom key X (head ++ rest) = cmacFrom key (aesEnc key (X.xor (Block.ofBytes head))) rest) ∧
  (∀ (key : Block) (msg : List Byte), cmac key msg = cmacFrom key zeroBlock msg)

/-- R134, R136, R135: CMAC.TAG answers the 16 bytes and MIC.PLAIN the first four of the same 16, for every message of
at most 255 bytes; a longer one is no operand (R40), and the name of that refusal is the model's own
(notes/assumptions/6.md). -/
def Obligations.PlainTagCommandsAnswer : Prop :=
  ∀ (key : Block) (msg : List Byte) (s : State),
    (msg.length ≤ 255 →
      exec (.cmacTag key msg) s = .next { s with response := 0x00 :: (cmac key msg).toList } ∧
      exec (.micPlain key msg) s = .next { s with response := 0x00 :: (cmac key msg).toList.take 4 }) ∧
    (255 < msg.length →
      exec (.cmacTag key msg) s = .refused (.illFormed .varTooLong) ∧
      exec (.micPlain key msg) s = .refused (.illFormed .varTooLong))

/-- R79, R137, R138, R139: MIC.DATA answers the first four bytes of the CMAC over the prefix block and the message, and
MIC.CHECK answers OK exactly for that tag, for both directions and every message of at most 239 bytes. -/
def Obligations.DataTagCommandsAgree : Prop :=
  ∀ (key : Block) (cnt : U32) (dir : Byte) (addr mic : Bytes4) (msg : List Byte) (s : State),
    (dir = 0 ∨ dir = 1) → msg.length ≤ 239 →
    let B0 : List Byte :=
      [0x49, 0, 0, 0, 0, dir, addr.b3, addr.b2, addr.b1, addr.b0, BitVec.ofNat 8 cnt.toNat,
       BitVec.ofNat 8 (cnt.toNat / 2 ^ 8), BitVec.ofNat 8 (cnt.toNat / 2 ^ 16), BitVec.ofNat 8 (cnt.toNat / 2 ^ 24),
       0, BitVec.ofNat 8 msg.length]
    let tag := (cmac key (B0 ++ msg)).toList.take 4
    exec (.micData key cnt dir addr msg) s = .next { s with response := 0x00 :: tag } ∧
    exec (.micCheck key cnt dir addr mic msg) s =
      .next { s with response := [if mic.toList = tag then 0x00 else 0x01] }

/-- R138, R139, R65, R266: a direction other than 0 and 1 is refused by MIC.DATA, MIC.CHECK and CTR.APPLY, a message
above 239 bytes by the first two, and data above 255 bytes by the third. The names of the refusals, and which of them is
given when several apply (the direction's first), are the model's choice (DESIGN CHOICE, notes/assumptions/6.md); the
spec has no such order. -/
def Obligations.TagAndKeystreamRefusals : Prop :=
  ∀ (key : Block) (cnt : U32) (dir : Byte) (addr mic : Bytes4) (msg : List Byte) (s : State),
    (dir ≠ 0 → dir ≠ 1 →
      exec (.micData key cnt dir addr msg) s = .refused (.illFormed .badDir) ∧
      exec (.micCheck key cnt dir addr mic msg) s = .refused (.illFormed .badDir) ∧
      exec (.ctrApply key cnt dir addr msg) s = .refused (.illFormed .badDir)) ∧
    ((dir = 0 ∨ dir = 1) → 239 < msg.length →
      exec (.micData key cnt dir addr msg) s = .refused (.illFormed .msgTooLong) ∧
      exec (.micCheck key cnt dir addr mic msg) s = .refused (.illFormed .msgTooLong)) ∧
    ((dir = 0 ∨ dir = 1) → 255 < msg.length →
      exec (.ctrApply key cnt dir addr msg) s = .refused (.illFormed .varTooLong))

/-! The keystream cipher (spec/42_ctr_cipher.md) and the key derivation (spec/43_key_derivation.md). -/

/-- R76, R150, R151: the output has the length of the input, and data byte k is XORed with byte `k mod 16` of the
encryption of the counter block of index `k / 16 + 1`, written out; for the 4080 bytes for which the keystream is
defined. -/
def Obligations.KeystreamBytesByPosition : Prop :=
  ∀ (key : Block) (cnt : U32) (dir : Dir) (addr : Bytes4) (data : List Byte), data.length ≤ 4080 →
    (ctr data cnt addr key dir).length = data.length ∧
    ∀ (k : Nat) (d : Byte), data[k]? = some d →
      let A : Block :=
        ⟨⟨0x01, 0, 0, 0⟩, ⟨0, if dir = .up then 0 else 1, addr.b3, addr.b2⟩,
         ⟨addr.b1, addr.b0, BitVec.ofNat 8 cnt.toNat, BitVec.ofNat 8 (cnt.toNat / 2 ^ 8)⟩,
         ⟨BitVec.ofNat 8 (cnt.toNat / 2 ^ 16), BitVec.ofNat 8 (cnt.toNat / 2 ^ 24), 0, BitVec.ofNat 8 (k / 16 + 1)⟩⟩
      (ctr data cnt addr key dir)[k]? = some (d ^^^ (aesEnc key A).toList.getD (k % 16) 0)

/-- R153: the keystream cipher is its own inverse. -/
def Obligations.KeystreamIsSelfInverse : Prop :=
  ∀ (data : List Byte) (cnt : U32) (addr : Bytes4) (key : Block) (dir : Dir),
    ctr (ctr data cnt addr key dir) cnt addr key dir = data

/-- R152, R153, R18: CTR.APPLY answers the transformed data, of the same length, and applied to its own answer under
the same operands it answers the data again. -/
def Obligations.CtrApplyAnswersAndUndoesItself : Prop :=
  ∀ (key : Block) (cnt : U32) (dir : Byte) (addr : Bytes4) (data : List Byte) (s : State),
    (dir = 0 ∨ dir = 1) → data.length ≤ 255 →
    let out := ctr data cnt addr key (if dir = 0 then .up else .down)
    out.length = data.length ∧
    exec (.ctrApply key cnt dir addr data) s =
      .next { s with response := 0x00 :: BitVec.ofNat 8 data.length :: out } ∧
    exec (.ctrApply key cnt dir addr out) s =
      .next { s with response := 0x00 :: BitVec.ofNat 8 data.length :: data }

/-- R78, R160, R161: KDF.DERIVE answers the encryption of the derivation block under the root key for the two flavors,
and every other flavor is refused. The rules say that the two blocks of one join differ; that the two keys differ is
inferred from it with R109, by which the encryption under one key is a bijection. -/
def Obligations.KeyDerivationByFlavor : Prop :=
  ∀ (root : Block) (joinNonce netId : Bytes3) (devNonce : Bytes2) (s : State),
    let key (flavor : Byte) : Block := aesEnc root
      ⟨⟨flavor, joinNonce.b2, joinNonce.b1, joinNonce.b0⟩, ⟨netId.b2, netId.b1, netId.b0, devNonce.b1⟩,
       ⟨devNonce.b0, 0, 0, 0⟩, ⟨0, 0, 0, 0⟩⟩
    exec (.kdfDerive 0x01 root joinNonce netId devNonce) s =
      .next { s with response := 0x00 :: (key 0x01).toList } ∧
    exec (.kdfDerive 0x02 root joinNonce netId devNonce) s =
      .next { s with response := 0x00 :: (key 0x02).toList } ∧
    key 0x01 ≠ key 0x02 ∧
    ∀ flavor : Byte, flavor ≠ 0x01 → flavor ≠ 0x02 →
      exec (.kdfDerive flavor root joinNonce netId devNonce) s = .refused (.illFormed .badFlavor)

/-! The wire codecs (spec/44_wire_codecs.md). -/

/-- R175 (1): a well-formed record of at most 59 encoded bytes is read back from its encoding. -/
def Obligations.MacRecordIsReadBack : Prop :=
  ∀ m : MacPayload, (m.port = none → m.app = []) → m.opts.length ≤ 15 → (macEnc m).length ≤ 59 →
    macDec (macEnc m) = .ok m

/-- R175 (2) (an inference the spec draws): every byte of a payload that decodes is written back to its place. -/
def Obligations.MacPayloadIsWrittenBack : Prop :=
  ∀ (p : List Byte) (m : MacPayload), macDec p = .ok m →
    macEnc m = p ∧ (m.port = none → m.app = []) ∧ m.opts.length ≤ 15

/-- R175 (3) (an inference the spec draws): the outer frame, both ways. -/
def Obligations.OuterFrameRoundTrip : Prop :=
  (∀ (t : FrameType) (payload : List Byte) (tag : Bytes4), 7 ≤ payload.length → payload.length ≤ 59 →
    frmDec (frmEnc t.toByte payload tag) = .ok ⟨t, payload, tag⟩) ∧
  (∀ (raw : List Byte) (f : Frame), frmDec raw = .ok f → frmEnc f.type.toByte f.payload f.tag = raw)

/-- R170, R71: FRM.DEC answers the three fields of every frame of 12 to 64 bytes whose first byte is one of the six
types, and FAIL for every other string of at most 255 bytes. -/
def Obligations.FrameDecodeAnswers : Prop :=
  (∀ (type : Byte) (payload : List Byte) (tag : Bytes4) (s : State),
    type ∈ [0x00, 0x20, 0x40, 0x60, 0x80, 0xA0] → 7 ≤ payload.length → payload.length ≤ 59 →
    exec (.frmDec (type :: payload ++ tag.toList)) s =
      .next { s with response := 0x00 :: type :: BitVec.ofNat 8 payload.length :: payload ++ tag.toList }) ∧
  (∀ (raw : List Byte) (s : State), raw.length ≤ 255 →
    (raw.length < 12 ∨ 64 < raw.length ∨ ∀ b ∈ raw.head?, b ∉ [0x00, 0x20, 0x40, 0x60, 0x80, 0xA0]) →
    exec (.frmDec raw) s = .next { s with response := [0x01] })

/-- R171, R178: FRM.ENC concatenates the three fields whatever the type byte, for a payload of 7 to 59 bytes, and
refuses a shorter or a longer one. That a type byte outside the map is no exception is the model's reading of the spec
(DEDUCED, notes/assumptions/5.md): R171 is followed against a line under test vector V30. -/
def Obligations.FrameEncodeAnswers : Prop :=
  ∀ (type : Byte) (payload : List Byte) (tag : Bytes4) (s : State),
    (7 ≤ payload.length → payload.length ≤ 59 →
      exec (.frmEnc type payload tag) s =
        .next { s with response := 0x00 :: BitVec.ofNat 8 (payload.length + 5) :: type :: payload ++ tag.toList }) ∧
    (payload.length < 7 → exec (.frmEnc type payload tag) s = .refused (.illFormed .payloadTooShort)) ∧
    (59 < payload.length → exec (.frmEnc type payload tag) s = .refused (.illFormed .payloadTooLong))

/-- R72, R173, R174: MAC.ENC answers the record laid out byte by byte, with no byte for a missing port, and MAC.DEC of
that payload answers exactly the operands that MAC.ENC was given. R64, R174, R178, R266 rows 2 to 4: every other operand
of MAC.ENC is refused: flag bits 3:0 set, more than 15 option bytes, a port byte or a payload without a port, a result
above 59 bytes. The names of the refusals, and which is given when several apply (the first in that order), are the
model's choice (DESIGN CHOICE, notes/assumptions/6.md). -/
def Obligations.MacCommandsAreMutual : Prop :=
  ∀ (addr : Bytes4) (flags : Byte) (fcnt16 : U16) (opts : List Byte) (hasPort : Bool) (port : Byte) (app : List Byte)
    (s : State),
    let size := 7 + opts.length + (if hasPort then 1 + app.length else 0)
    let encoded : Out := exec (.macEnc addr flags fcnt16 opts hasPort port app) s
    (flags &&& 0x0F = 0 → opts.length ≤ 15 → (hasPort = false → port = 0 ∧ app = []) → size ≤ 59 →
      let p : List Byte :=
        [addr.b3, addr.b2, addr.b1, addr.b0, flags + BitVec.ofNat 8 opts.length, BitVec.ofNat 8 fcnt16.toNat,
         BitVec.ofNat 8 (fcnt16.toNat / 256)] ++ opts ++ (if hasPort then port :: app else [])
      encoded = .next { s with response := 0x00 :: BitVec.ofNat 8 p.length :: p } ∧
      exec (.macDec p) s =
        .next { s with
          response := 0x00 :: addr.toList ++ [flags, BitVec.ofNat 8 fcnt16.toNat, BitVec.ofNat 8 (fcnt16.toNat / 256)]
            ++ BitVec.ofNat 8 opts.length :: opts ++ [if hasPort then 0x01 else 0x00, port]
            ++ BitVec.ofNat 8 app.length :: app }) ∧
    (flags &&& 0x0F ≠ 0 → encoded = .refused (.illFormed .badFlags)) ∧
    (flags &&& 0x0F = 0 → 15 < opts.length → encoded = .refused (.illFormed .optsTooLong)) ∧
    (flags &&& 0x0F = 0 → opts.length ≤ 15 → hasPort = false → (port ≠ 0 ∨ app ≠ []) →
      encoded = .refused (.illFormed .portlessApp)) ∧
    (flags &&& 0x0F = 0 → opts.length ≤ 15 → (hasPort = false → port = 0 ∧ app = []) → 59 < size →
      encoded = .refused (.illFormed .encodedTooLong))

/-- R173: MAC.DEC answers FAIL exactly when the header or the options do not fit the bytes present. R40, R266 row 3: a
payload above 59 bytes is refused, by a name of the model's own (notes/assumptions/6.md). -/
def Obligations.MacDecodeFailures : Prop :=
  ∀ (p : List Byte) (s : State),
    (p.length ≤ 59 →
      (exec (.macDec p) s = .next { s with response := [0x01] } ↔
        p.length < 7 ∨ p.length < 7 + (p.getD 4 0).toNat % 16)) ∧
    (59 < p.length → exec (.macDec p) s = .refused (.illFormed .payloadTooLong))

/-- R73, R176: JREQ.DEC answers the three fields of an 18-byte payload, each reversed, and FAIL at every other length up
to 59. R40, R266 row 3: a payload above 59 bytes is refused, by a name of the model's own (notes/assumptions/6.md). -/
def Obligations.JoinRequestDecodeAnswers : Prop :=
  (∀ (a d : Bytes8) (n : Bytes2) (s : State),
    exec (.jreqDec [a.b7, a.b6, a.b5, a.b4, a.b3, a.b2, a.b1, a.b0, d.b7, d.b6, d.b5, d.b4, d.b3, d.b2, d.b1, d.b0,
        n.b1, n.b0]) s =
      .next { s with response := 0x00 :: (a.toList ++ d.toList ++ n.toList) }) ∧
  (∀ (p : List Byte) (s : State), p.length ≤ 59 → p.length ≠ 18 →
    exec (.jreqDec p) s = .next { s with response := [0x01] }) ∧
  (∀ (p : List Byte) (s : State), 59 < p.length →
    exec (.jreqDec p) s = .refused (.illFormed .payloadTooLong))

/-- R74, R177: JACC.ENC answers the 28 bytes, every field reversed on its own, sixteen zero bytes last. -/
def Obligations.JoinAcceptEncodeAnswers : Prop :=
  ∀ (j n : Bytes3) (a : Bytes4) (settings rxDelay : Byte) (s : State),
    exec (.jaccEnc j n a settings rxDelay) s =
      .next { s with
        response := [0x00, 28, j.b2, j.b1, j.b0, n.b2, n.b1, n.b0, a.b3, a.b2, a.b1, a.b0, settings, rxDelay]
          ++ List.replicate 16 0 }

/-! The frame counter (spec/45_frame_counter.md). -/

/-- R200: the candidates as numbers, their number and their order, for every stored counter, with the wrap of the high
word at 0xFFFF. -/
def Obligations.CounterCandidatesAnswer : Prop :=
  ∀ (wire16 : U16) (stored : U32) (resetAllowed : Bool) (s : State), ∃ a b : U32,
    a.toNat = stored.toNat / 65536 * 65536 + wire16.toNat ∧
    b.toNat = (stored.toNat / 65536 + 1) % 65536 * 65536 + wire16.toNat ∧
    fcntCand wire16 stored resetAllowed = (if resetAllowed then [a, b, 0] else [a, b]) ∧
    exec (.fcntCand wire16 stored resetAllowed) s =
      .next { s with
        response := 0x00 :: (if resetAllowed then 3 else 2) :: le32 a ++ le32 b
          ++ (if resetAllowed then [0, 0, 0, 0] else []) }

/-- R201: the accepted counter is the first candidate, in list order, under which the frame's tag is the right one;
there is none when no candidate matches. -/
def Obligations.FirstMatchIsAccepted : Prop :=
  ∀ (cands : List U32) (key : Block) (dir : Dir) (addr : Bytes4) (msg : List Byte) (tag : Bytes4),
    (∀ acc, accept cands key dir addr msg tag = some acc ↔
      ∃ before after, cands = before ++ acc :: after ∧ micData key acc dir addr msg = tag ∧
        ∀ c ∈ before, micData key c dir addr msg ≠ tag) ∧
    (accept cands key dir addr msg tag = none ↔ ∀ c ∈ cands, micData key c dir addr msg ≠ tag)

/-- R203: the classes as a comparison of numbers: below the stored counter stale, equal and not 0 a replay, every other
counter fresh. -/
def Obligations.FreshnessClassAnswers : Prop :=
  ∀ (acc stored : U32) (s : State),
    (acc.toNat < stored.toNat → exec (.fcntClass acc stored) s = .next { s with response := [0x00, 0] }) ∧
    (acc = stored → stored.toNat ≠ 0 → exec (.fcntClass acc stored) s = .next { s with response := [0x00, 1] }) ∧
    (stored.toNat < acc.toNat ∨ (acc = 0 ∧ stored = 0) →
      exec (.fcntClass acc stored) s = .next { s with response := [0x00, 2] })

/-- R204 (an inference the spec draws from R200, R201, R203): a wire counter below the stored low half, sent with the
next high word, is accepted as that counter and is fresh. -/
def Obligations.CounterRollover : Prop :=
  ∀ (key : Block) (dir : Dir) (addr : Bytes4) (msg : List Byte) (tag : Bytes4) (hi w lo : Nat) (resetAllowed : Bool),
    hi < 65535 → lo < 65536 → w < lo →
    let stored : U32 := BitVec.ofNat 32 (hi * 65536 + lo)
    let v : U32 := BitVec.ofNat 32 ((hi + 1) * 65536 + w)
    tag = micData key v dir addr msg → tag ≠ micData key (BitVec.ofNat 32 (hi * 65536 + w)) dir addr msg →
    accept (fcntCand (BitVec.ofNat 16 w) stored resetAllowed) key dir addr msg tag = some v ∧
    fcntClass v stored = .fresh

/-! The engine (spec/46_protocol_engine.md): set-up. -/

/-- R250: SESS.LOAD replaces the whole session, makes it valid, and does nothing else; in particular no SAVE. -/
def Obligations.SessionLoadReplacesTheSession : Prop :=
  ∀ (addr : Bytes4) (appSKey nwkSKey : Block) (up down : U32) (s : State),
    exec (.sessLoad addr appSKey nwkSKey up down) s =
      .next { s with session := ⟨addr, appSKey, nwkSKey, up, down⟩, sessionValid := true, response := [] }

/-- R251: CFG.SET writes both bits and nothing else; a value above 3 has one of bits 7:2 set and is refused. -/
def Obligations.ConfigSetWritesBothBits : Prop :=
  ∀ (cfg : Byte) (s : State),
    (cfg.toNat < 4 → exec (.cfgSet cfg) s =
      .next { s with joinEn := decide (cfg.toNat % 2 = 1), deliverEn := decide (2 ≤ cfg.toNat), response := [] }) ∧
    (4 ≤ cfg.toNat → exec (.cfgSet cfg) s = .refused (.illFormed .badCfg))

/-! The engine: reception and drops. -/

/-- R220, R221, R70, and the model's frame-type terms (notes/assumptions/8.md): receiving a frame is the meaning of
its frame type: RX.FRAME on a string that decodes as a frame is that frame-type instruction, with the same `rssi` and
flag. -/
def Obligations.ReceptionRunsTheFrameType : Prop :=
  ∀ (raw : List Byte) (rssi : U16) (resetAllowed : Bool) (i : Instr) (s : State),
    decodeFrame raw rssi resetAllowed = .ok i → exec (.rxFrame raw rssi resetAllowed) s = exec i s

/-- R220, D18: RX.FRAME and every frame type are refused when the margin would not fit one byte, whatever the frame
and the state. The frame-type terms are the model's (DESIGN CHOICE, notes/assumptions/8.md). -/
def Obligations.StrongSignalIsRefused : Prop :=
  ∀ (raw payload : List Byte) (t : FrameType) (tag : Bytes4) (rssi : U16) (resetAllowed : Bool) (s : State),
    135 < rssi.toInt →
    (raw.length ≤ 255 → exec (.rxFrame raw rssi resetAllowed) s = .refused (.illFormed .rssiTooHigh)) ∧
    exec (frameInstr t payload tag rssi resetAllowed) s = .refused (.illFormed .rssiTooHigh)

/-- R221: an inbound join accept is dropped, whatever it holds: TYPE.JOIN_ACCEPT completes and changes nothing but the
response, which is empty. The frame-type term is the model's (DESIGN CHOICE, notes/assumptions/8.md). -/
def Obligations.InboundJoinAcceptIsDropped : Prop :=
  ∀ (payload : List Byte) (tag : Bytes4) (rssi : U16) (resetAllowed : Bool) (s : State), rssi.toInt ≤ 135 →
    exec (.typeJoinAccept payload tag rssi resetAllowed) s = .next { s with response := [] }

/-- R260, R261 causes 1 to 7: each of these receptions is a silent drop. Those on a frame's payload are said of the
model's term for the type (DESIGN CHOICE, notes/assumptions/8.md). -/
def Obligations.JoinBranchDrops : Prop :=
  ∀ (raw payload : List Byte) (tag : Bytes4) (rssi : U16) (resetAllowed : Bool) (s : State), rssi.toInt ≤ 135 →
    let dropped : Out := .next { s with response := [] }
    (raw.length < 12 → exec (.rxFrame raw rssi resetAllowed) s = dropped) ∧
    (64 < raw.length → raw.length ≤ 255 → exec (.rxFrame raw rssi resetAllowed) s = dropped) ∧
    (raw.length ≤ 255 → (∀ b ∈ raw.head?, b ∉ [0x00, 0x20, 0x40, 0x60, 0x80, 0xA0]) →
      exec (.rxFrame raw rssi resetAllowed) s = dropped) ∧
    (s.joinEn = false → exec (.typeJoinRequest payload tag rssi resetAllowed) s = dropped) ∧
    (payload.length ≠ 18 → exec (.typeJoinRequest payload tag rssi resetAllowed) s = dropped) ∧
    (payload.take 8 ≠ s.ident.appEui.toList.reverse →
      exec (.typeJoinRequest payload tag rssi resetAllowed) s = dropped) ∧
    ((payload.drop 8).take 8 ≠ s.ident.devEui.toList.reverse →
      exec (.typeJoinRequest payload tag rssi resetAllowed) s = dropped) ∧
    (tag.toList ≠ (cmac s.ident.rootKey (0x00 :: payload)).toList.take 4 →
      exec (.typeJoinRequest payload tag rssi resetAllowed) s = dropped)

/-- R260, R261 causes 8 to 12: each of these receptions of a data frame, of any of the four data types, is a silent
drop; a stale frame that the counter reset does not reach among them. The frame-type terms are the model's
(DESIGN CHOICE, notes/assumptions/8.md). -/
def Obligations.DataBranchDrops : Prop :=
  ∀ (t : FrameType) (payload : List Byte) (tag : Bytes4) (rssi : U16) (resetAllowed : Bool) (s : State),
    t.isData = true → rssi.toInt ≤ 135 →
    let dropped : Out := .next { s with response := [] }
    let cands := fcntCand (u16le (payload.getD 5 0) (payload.getD 6 0)) s.session.fcntUp resetAllowed
    let matching (c : U32) : Prop :=
      micData s.session.nwkSKey c t.dir s.session.devAddr (t.toByte :: payload) = tag
    (s.sessionValid = false → exec (frameInstr t payload tag rssi resetAllowed) s = dropped) ∧
    (payload.length < 7 + (payload.getD 4 0).toNat % 16 →
      exec (frameInstr t payload tag rssi resetAllowed) s = dropped) ∧
    (payload.take 4 ≠ s.session.devAddr.toList.reverse →
      exec (frameInstr t payload tag rssi resetAllowed) s = dropped) ∧
    ((∀ c ∈ cands, ¬ matching c) → exec (frameInstr t payload tag rssi resetAllowed) s = dropped) ∧
    (∀ acc, accept cands s.session.nwkSKey t.dir s.session.devAddr (t.toByte :: payload) tag = some acc →
      ¬ (acc = 0 ∧ resetAllowed = true) → acc.toNat < s.session.fcntUp.toNat →
      exec (frameInstr t payload tag rssi resetAllowed) s = dropped)

/-- R236, C8 (an inference the spec draws from R234, R235, R203): a frame that forced the counter is never stale. -/
def Obligations.ForcedResetIsNeverStale : Prop :=
  ∀ (acc : U32) (sc : State × Conditions), resetForced acc true = true →
    ∃ sc', freshness acc (forceReset acc true sc) = .ok sc' ∧ sc'.1.session.fcntUp = 0 ∧ sc'.2.dirty = true ∧
      sc'.2.replay = sc.2.replay

/-! The engine: the join branch. -/

/-- R222 to R229: a join request with the paired identity and a valid tag, while join is enabled: TYPE.JOIN_REQUEST
completes with new keys derived from the draw, both counters 0, the address carried forward, and EMIT, SAVE, JOINED in
that order; RX.FRAME on the same 23 bytes does the same. The draw is whatever the environment gives (R21); how `draws`
and `drawCount` supply it is the model's choice (DESIGN CHOICE, notes/assumptions/4.md), and so is the frame-type term
(DESIGN CHOICE, notes/assumptions/8.md). -/
def Obligations.JoinSucceeds : Prop :=
  ∀ (n : Bytes2) (rssi : U16) (resetAllowed : Bool) (s : State), rssi.toInt ≤ 135 → s.joinEn = true →
    let root := s.ident.rootKey
    let payload := s.ident.appEui.toList.reverse ++ s.ident.devEui.toList.reverse ++ [n.b1, n.b0]
    let tag := Bytes4.ofBytes ((cmac root (0x00 :: payload)).toList.take 4)
    let d := s.nextDraw
    let key (flavor : Byte) : Block := aesEnc root
      ⟨⟨flavor, d.b2, d.b1, d.b0⟩, ⟨0, 0, 0, n.b1⟩, ⟨n.b0, 0, 0, 0⟩, ⟨0, 0, 0, 0⟩⟩
    let record : Session := ⟨s.session.devAddr, key 0x02, key 0x01, 0, 0⟩
    let t : State :=
      { s with
        session := record
        sessionValid := true
        draws := s.draws.tail
        drawCount := if s.draws = [] then s.drawCount + 1 else s.drawCount
        response := []
        events := s.events ++
          [.emit (joinAcceptFrame root d s.session.devAddr) 33 5000, .save record, .joined] }
    exec (.typeJoinRequest payload tag rssi resetAllowed) s = .next t ∧
    exec (.rxFrame (0x00 :: payload ++ tag.toList) rssi resetAllowed) s = .next t

/-- R74, R75, R228, C1, C2: the join-accept frame is the byte 0x20 and two blocks, 33 bytes; the forward transform under
the root key gives back the 28-byte join accept and its tag, the tag computed over the clear bytes. -/
def Obligations.JoinAcceptIsRecoverable : Prop :=
  ∀ (root : Block) (d : Bytes3) (addr : Bytes4), ∃ W1 W2 : Block,
    joinAcceptFrame root d addr = 0x20 :: W1.toList ++ W2.toList ∧
    let body : List Byte :=
      [d.b2, d.b1, d.b0, 0, 0, 0, addr.b3, addr.b2, addr.b1, addr.b0, 0x00, 0x01] ++ List.replicate 16 0
    (aesEnc root W1).toList ++ (aesEnc root W2).toList =
      body ++ (cmac root (0x20 :: body)).toList.take 4

/-! The engine: the data branch. -/

/-- R231 to R243: what a data frame of any of the four data types does once a candidate has validated. `stored` is the
uplink counter after the reset rule; the rows are those of R245, a summary the spec infers from R234 to R243, said of
the model's frame-type terms (DESIGN CHOICE, notes/assumptions/8.md), with the frames, the SAVE record and the DELIVER
arguments written out by the model's own functions for the response and the plaintext. -/
def Obligations.DataBranchOutcomes : Prop :=
  ∀ (t : FrameType) (payload : List Byte) (tag : Bytes4) (rssi : U16) (resetAllowed : Bool) (s : State)
    (m : MacPayload) (acc : U32),
    t.isData = true → rssi.toInt ≤ 135 → payload.length ≤ 59 → s.sessionValid = true →
    macDec payload = .ok m → m.addr = s.session.devAddr →
    accept (fcntCand m.fcnt16 s.session.fcntUp resetAllowed) s.session.nwkSKey t.dir s.session.devAddr
      (t.toByte :: payload) tag = some acc →
    let forced := decide (acc = 0) && resetAllowed
    let stored : U32 := if forced then 0 else s.session.fcntUp
    let plain := if m.app = [] then [] else ctr m.app acc s.session.devAddr s.session.appSKey t.dir
    let linkcheck := decide (m.opts.head? = some 0x02) || (decide (m.port = some 0x00) && decide (plain.head? = some 0x02))
    let respond := decide (t = .confirmedUp) || linkcheck
    let down := if respond then s.session.fcntDown + 1 else s.session.fcntDown
    let answerTo (record : Session) : List Event :=
      if respond then
        [.emit (responseFrame record (decide (t = .confirmedUp)) linkcheck rssi) (if linkcheck then 15 else 12) 1000]
      else []
    (acc.toNat < stored.toNat →
      exec (frameInstr t payload tag rssi resetAllowed) s = .next { s with response := [] }) ∧
    (acc = stored → stored ≠ 0 →
      let record : Session := { s.session with fcntDown := down }
      exec (frameInstr t payload tag rssi resetAllowed) s =
        .next { s with
          session := record
          response := []
          events := s.events ++ answerTo record ++ (if respond then [.save record] else []) }) ∧
    (stored.toNat < acc.toNat ∨ (acc = 0 ∧ stored = 0) →
      let record : Session := { s.session with fcntUp := acc, fcntDown := down }
      let deliver : List Event :=
        match m.port with
        | some port => if port ≠ 0 ∧ s.deliverEn = true then [.deliver port plain plain.length] else []
        | none => []
      exec (frameInstr t payload tag rssi resetAllowed) s =
        .next { s with
          session := record
          response := []
          events := s.events ++ answerTo record ++ [.save record] ++ deliver })

/-- R72, R81, R85, R240, R241: the response frame is one that the paired device accepts: it decodes as an
unconfirmed-down frame of 12 or 15 bytes with the address, the ack flag, the low half of the downlink counter, the
link-check option with the clamped margin, no port and no payload, and its tag validates under the network session key
with all 32 bits of that counter and direction down. -/
def Obligations.ResponseFrameIsAuthentic : Prop :=
  ∀ (record : Session) (ack linkcheck : Bool) (rssi : U16), rssi.toInt ≤ 135 →
    ∃ (payload : List Byte) (margin : Byte),
      let raw := responseFrame record ack linkcheck rssi
      let tag := micData record.nwkSKey record.fcntDown .down record.devAddr (0x60 :: payload)
      raw.length = (if linkcheck then 15 else 12) ∧
      (margin.toNat : Int) = max 0 (rssi.toInt + 120) ∧
      frmDec raw = .ok ⟨.unconfirmedDown, payload, tag⟩ ∧
      macDec payload = .ok
        { addr := record.devAddr, pending := false, ack := ack, adrAckReq := false, adr := false
          fcnt16 := BitVec.ofNat 16 record.fcntDown.toNat
          opts := if linkcheck then [0x02, margin, 0x01] else [], port := none, app := [] }

/-- R200, R201, R233 to R237, R243 (end to end): a frame that the paired device makes under the session keys with a
counter above the stored one and in the same half, of any data type, is accepted: TYPE.UNCONFIRMED_UP,
TYPE.UNCONFIRMED_DOWN, TYPE.CONFIRMED_UP and TYPE.CONFIRMED_DOWN complete with the uplink counter advanced to it, the
record saved, and the application payload delivered decrypted when delivery is enabled and the port is not 0; a
confirmed uplink is acknowledged and a link check answered, with the next downlink counter, and nothing else is emitted. The
frame-type terms are the model's (DESIGN CHOICE, notes/assumptions/8.md). -/
def Obligations.HonestFrameIsAcceptedAndDelivered : Prop :=
  ∀ (t : FrameType) (m : MacPayload) (v : U32) (rssi : U16) (resetAllowed : Bool) (s : State) (port : Byte),
    t.isData = true → rssi.toInt ≤ 135 → s.sessionValid = true → s.deliverEn = true →
    m.addr = s.session.devAddr → m.port = some port → port ≠ 0 → m.opts.length ≤ 15 →
    m.opts.length + m.app.length ≤ 51 →
    v.toNat / 65536 = s.session.fcntUp.toNat / 65536 → s.session.fcntUp.toNat < v.toNat →
    let sent : MacPayload :=
      { m with
        fcnt16 := BitVec.ofNat 16 v.toNat
        app := ctr m.app v s.session.devAddr s.session.appSKey t.dir }
    let payload := macEnc sent
    let tag := micData s.session.nwkSKey v t.dir s.session.devAddr (t.toByte :: payload)
    ∃ (u : State) (first : List Event),
      exec (frameInstr t payload tag rssi resetAllowed) s = .next u ∧
      u.session = { s.session with fcntUp := v, fcntDown := u.session.fcntDown } ∧
      u = { s with session := u.session, response := [], events := u.events } ∧
      u.events = s.events ++ first ++ [.save u.session, .deliver port m.app m.app.length] ∧
      (t = .confirmedUp → u.session.fcntDown = s.session.fcntDown + 1 ∧
        first = [.emit (responseFrame u.session true (decide (m.opts.head? = some 0x02)) rssi)
          (if m.opts.head? = some 0x02 then 15 else 12) 1000]) ∧
      (t ≠ .confirmedUp → m.opts.head? = some 0x02 → u.session.fcntDown = s.session.fcntDown + 1 ∧
        first = [.emit (responseFrame u.session false true rssi) 15 1000]) ∧
      (t ≠ .confirmedUp → m.opts.head? ≠ some 0x02 → u.session.fcntDown = s.session.fcntDown ∧ first = [])

/-- R235, R239, R243 (replay suppression): when the accepted counter is the stored one and is not 0, nothing is
delivered and the uplink counter stays; the response, if one is asked for, is built again with the next downlink
counter. Stated as: no event that the reception adds is a DELIVER, and both counters are as said. The
frame-type terms are the model's (DESIGN CHOICE, notes/assumptions/8.md). -/
def Obligations.ReplayIsNotDelivered : Prop :=
  ∀ (t : FrameType) (payload : List Byte) (tag : Bytes4) (rssi : U16) (resetAllowed : Bool) (s u : State),
    t.isData = true →
    accept (fcntCand (u16le (payload.getD 5 0) (payload.getD 6 0)) s.session.fcntUp resetAllowed) s.session.nwkSKey
      t.dir s.session.devAddr (t.toByte :: payload) tag = some s.session.fcntUp →
    s.session.fcntUp ≠ 0 →
    exec (frameInstr t payload tag rssi resetAllowed) s = .next u →
    ∃ evs, u.events = s.events ++ evs ∧ (∀ port p len, Event.deliver port p len ∉ evs) ∧
      u.session.fcntUp = s.session.fcntUp ∧
      ((evs = [] ∧ u.session = s.session) ∨
        (u.session = { s.session with fcntDown := s.session.fcntDown + 1 } ∧
          ∃ bytes len, evs = [.emit bytes len 1000, .save u.session]))

/-- R304 (an inference the spec draws from R203): while the stored counter is 0, an authentic counter-0 frame is fresh
each time: the same reception a second time raises the same events again and leaves the session as it is. The frame-type
term is the model's (DESIGN CHOICE, notes/assumptions/8.md). -/
def Obligations.CounterZeroFrameIsAcceptedAgain : Prop :=
  ∀ (payload : List Byte) (tag : Bytes4) (rssi : U16) (s : State) (m : MacPayload),
    rssi.toInt ≤ 135 → payload.length ≤ 59 → s.sessionValid = true → s.session.fcntUp = 0 →
    macDec payload = .ok m → m.addr = s.session.devAddr → m.fcnt16 = 0 → m.opts = [] → m.port ≠ some 0 →
    micData s.session.nwkSKey 0 .up s.session.devAddr (0x40 :: payload) = tag →
    ∃ (u : State) (evs : List Event),
      exec (.typeUnconfirmedUp payload tag rssi false) s = .next u ∧
      exec (.typeUnconfirmedUp payload tag rssi false) u = .next { u with events := u.events ++ evs } ∧
      u = { s with response := [], events := s.events ++ evs } ∧
      evs.head? = some (.save s.session) ∧
      (s.deliverEn = true → ∀ port, m.port = some port → ∃ plain, evs = [.save s.session, .deliver port plain plain.length])

/-! Whole-machine rules. -/

/-- R260, R270, R273: whatever RX.FRAME is given, the events it adds are one of the sequences of the table, every SAVE
among them carries the session as the command leaves it, and the session has not changed unless one is raised. -/
def Obligations.ReceptionEventsAreLegal : Prop :=
  ∀ (raw : List Byte) (rssi : U16) (resetAllowed : Bool) (s u : State),
    exec (.rxFrame raw rssi resetAllowed) s = .next u →
    ∃ evs, u.events = s.events ++ evs ∧ legalSequence evs = true ∧
      (∀ record, Event.save record ∈ evs → record = u.session) ∧
      (u.session ≠ s.session → Event.save u.session ∈ evs) ∧
      (evs = [] → u = { s with response := [] })

/-- R18: every command but RX.FRAME, SESS.LOAD and CFG.SET reads and writes no state: the next state differs in the
response only, and the response, or the refusal, is the same from every state. -/
def Obligations.OnlyThreeCommandsTouchTheState : Prop :=
  ∀ i : Instr, i.isCommand = true → (∀ raw rssi ra, i ≠ .rxFrame raw rssi ra) →
    (∀ a k n up down, i ≠ .sessLoad a k n up down) → (∀ cfg, i ≠ .cfgSet cfg) →
    (∃ r, ∀ s, exec i s = .next { s with response := r }) ∨ (∃ e, ∀ s, exec i s = .refused (.illFormed e))

/-- R13 to R17: who writes what. The identity is never written; the address only by SESS.LOAD; the keys and the
counters only by SESS.LOAD and by receptions; the valid bit is only ever set; the enables only by CFG.SET; and the
host's moves by no instruction. R61: a command of class STATE, and a frame, has the empty response. -/
def Obligations.StateIsWrittenOnlyByItsOwners : Prop :=
  ∀ (i : Instr) (s u : State), exec i s = .next u →
    u.ident = s.ident ∧ u.host = s.host ∧
    (s.sessionValid = true → u.sessionValid = true) ∧
    ((∀ a k n up down, i ≠ .sessLoad a k n up down) → u.session.devAddr = s.session.devAddr) ∧
    ((∀ cfg, i ≠ .cfgSet cfg) → u.joinEn = s.joinEn ∧ u.deliverEn = s.deliverEn) ∧
    (i.instrClass ≠ .frame → (∀ raw rssi ra, i ≠ .rxFrame raw rssi ra) →
      u.events = s.events ∧ u.draws = s.draws ∧ u.drawCount = s.drawCount ∧
      ((∀ a k n up down, i ≠ .sessLoad a k n up down) → u.session = s.session ∧ u.sessionValid = s.sessionValid)) ∧
    (i.isComputational = false → u.response = [])

/-- R13: the identity is used only during a join: an instruction that is no reception of a frame of type 0x00 gives the
same outcome from two states that differ in the identity only, up to that difference. -/
def Obligations.IdentityIsReadOnlyInJoins : Prop :=
  ∀ (i : Instr) (s : State) (other : Identity),
    (∀ payload tag rssi ra, i ≠ .typeJoinRequest payload tag rssi ra) →
    (∀ raw rssi ra, i = .rxFrame raw rssi ra → raw.head? ≠ some 0x00) →
    (∀ u, exec i s = .next u → exec i { s with ident := other } = .next { u with ident := other }) ∧
    (∀ r, exec i s = .refused r → exec i { s with ident := other } = .refused r)

/-- R205 (an inference the spec draws from R202, R203): along any step the uplink counter falls only by SESS.LOAD, by a
join, or by a reception with the reset flag, which then leaves it 0. -/
def Obligations.UplinkCounterIsMonotonic : Prop :=
  ∀ s u : State, step s = .next u → u.session.fcntUp.toNat < s.session.fcntUp.toNat →
    ∃ (bytes : List Byte) (moves : List HostMove) (i : Instr),
      s.host = .issue bytes :: moves ∧ decode bytes = .ok i ∧ s.events = [] ∧
      ((∃ a k n up down, i = .sessLoad a k n up down) ∨
       (∃ raw rssi ra, i = .rxFrame raw rssi ra ∧ raw.head? = some 0x00 ∧ u.session.fcntUp = 0 ∧
          u.events.getLast? = some .joined) ∨
       (∃ raw rssi, i = .rxFrame raw rssi true ∧ u.session.fcntUp = 0 ∧ .save u.session ∈ u.events))

/-- R25 (an inference the spec draws from R15, R229, R230, R242): while no session is valid, nothing reads the session
keys and the counters: two states that differ in those four elements only do the same at every step, and are equal
once a session exists. -/
def Obligations.UnjoinedSessionIsNeverRead : Prop :=
  ∀ s t : State, sameWhileUnjoined s t → sameOutcomeWhileUnjoined (step s) (step t)

/-- R24, R290: reset, as far as the spec gives values: the identity and the address are the model's arguments, the
three control bits are 0, no event is pending and the block is not busy. The remaining fields of the state are the
model's own. -/
def Obligations.ResetValues : Prop :=
  State.reset.ident = ⟨Config.identDevEui, Config.identAppEui, Config.identRootKey⟩ ∧
  State.reset.session.devAddr = Config.devAddrInit ∧
  State.reset.sessionValid = false ∧ State.reset.joinEn = false ∧ State.reset.deliverEn = false ∧
  State.reset.events = [] ∧ State.reset.busy = false

/-- R291 (an inference the spec draws from R221, R230): with the three control bits 0, as reset leaves them, every
well-formed instruction but CFG.SET and SESS.LOAD completes, emits nothing and changes nothing but the response; and a
reception's response is empty. -/
def Obligations.NothingHappensBeforeSetUp : Prop :=
  ∀ (i : Instr) (s : State), s.sessionValid = false → s.joinEn = false → s.deliverEn = false →
    i.wellFormed = true → (∀ cfg, i ≠ .cfgSet cfg) → (∀ a k n up down, i ≠ .sessLoad a k n up down) →
    ∃ r, exec i s = .next { s with response := r } ∧ (i.isComputational = false → r = [])

/-- R65, R266: a well-formed instruction completes in every state; a command that is not is refused by the name of its
first issue, and by nothing else. -/
def Obligations.RefusedExactlyWhenIllFormed : Prop :=
  (∀ (i : Instr) (s : State), i.wellFormed = true → ∃ u, exec i s = .next u) ∧
  (∀ (i : Instr) (s : State), i.isCommand = true → i.wellFormed = false →
    ∃ e, i.issue = some e ∧ exec i s = .refused (.illFormed e))

/-! Steps. -/

/-- R60, R300, and the model's host moves (notes/assumptions/2.md): when the block is idle and the host issues bytes
that decode to an instruction, the step is that instruction in the state whose move has been taken; bytes that decode
to none are refused by the decoder's name. -/
def Obligations.StepRunsTheIssuedCommand : Prop :=
  ∀ (s : State) (bytes : List Byte) (moves : List HostMove), s.host = .issue bytes :: moves → s.events = [] →
    (∀ i, decode bytes = .ok i → step s = exec i { s with host := moves }) ∧
    (∀ e, decode bytes = .error e → step s = .refused (.malformed e))

/-- R300, R274, R267, and the model's host moves (notes/assumptions/2.md): while an event has not returned every
command is refused; without a command the oldest event returns and nothing else changes; an idle block with no command
does nothing but take the host's move. -/
def Obligations.BusyBlockRefusesAndEventsReturn : Prop :=
  ∀ s : State,
    (s.events ≠ [] → ∀ bytes moves, s.host = .issue bytes :: moves → step s = .refused .busy) ∧
    (∀ moves, s.host = .wait :: moves → step s = .next { s with host := moves, events := s.events.tail }) ∧
    (s.host = [] → step s = .next { s with events := s.events.tail }) ∧
    (s.host = [] → s.events = [] → step s = .next s)

/-- R50, R268 to R274: every step keeps the invariant of the pending events: they are what is left of a legal sequence,
and a pending SAVE carries the session as it is. -/
def Obligations.StepKeepsPendingEventsLegal : Prop :=
  ∀ s u : State, s.EventsInv → step s = .next u → u.EventsInv

/-- R24: the invariant of the pending events holds after reset. -/
def Obligations.ResetEventsLegal : Prop := State.reset.EventsInv

/-! Encodings (spec/30_encoding.md). -/

/-- R60 to R64: every well-formed command is read back from its bytes, with every operand. -/
def Obligations.CommandIsReadBack : Prop :=
  ∀ i : Instr, i.isCommand = true → i.wellFormed = true → decode (encode i) = .ok i

/-- R60 to R65: a byte string that decodes is the encoding of what it decodes to, so no byte is dropped and no two
strings are one command. -/
def Obligations.CommandBytesAreWrittenBack : Prop :=
  ∀ (bytes : List Byte) (i : Instr), decode bytes = .ok i → encode i = bytes ∧ i.isCommand = true

/-- R70, R71: every well-formed frame-type instruction is read back from its frame. -/
def Obligations.FrameIsReadBack : Prop :=
  ∀ (t : FrameType) (payload : List Byte) (tag : Bytes4) (rssi : U16) (resetAllowed : Bool),
    (frameInstr t payload tag rssi resetAllowed).wellFormed = true →
    decodeFrame (encode (frameInstr t payload tag rssi resetAllowed)) rssi resetAllowed =
      .ok (frameInstr t payload tag rssi resetAllowed)

/-- Words written out from R62 to R64 and R71, one of each kind of operand. -/
def Obligations.WrittenOutWordsDecode : Prop :=
  decode [0x71, 0x03] = .ok (.cfgSet 0x03) ∧
  decode [0x51, 0x05, 0x00, 0x00, 0x00, 0x06, 0x00, 0x01, 0x00] = .ok (.fcntClass 5 0x00010006) ∧
  decode [0x50, 0x02, 0x00, 0xfe, 0xff, 0x01, 0x00, 0x01] = .ok (.fcntCand 2 0x0001fffe true) ∧
  decode [0x43, 0x26, 0x01, 0x1b, 0xda, 0x20, 0x34, 0x12, 0x01, 0x02, 0x00, 0x00, 0x00] =
    .ok (.macEnc ⟨0x26, 0x01, 0x1b, 0xda⟩ 0x20 0x1234 [0x02] false 0x00 []) ∧
  decode [0x45, 0xa1, 0xb2, 0xc3, 0x00, 0x00, 0x00, 0x26, 0x01, 0x1b, 0xda, 0x00, 0x01] =
    .ok (.jaccEnc ⟨0xa1, 0xb2, 0xc3⟩ ⟨0, 0, 0⟩ ⟨0x26, 0x01, 0x1b, 0xda⟩ 0x00 0x01) ∧
  decode [0x60, 0x02, 0xaa, 0xbb, 0xc4, 0xff, 0x00] = .ok (.rxFrame [0xaa, 0xbb] 0xffc4 false) ∧
  decode [0x50, 0x02, 0x00, 0xfe, 0xff, 0x01, 0x00, 0x02] = .error (.badFlag 0x02) ∧
  decode [0x72] = .error (.unknownOpcode 0x72) ∧ decode [0x71] = .error .tooShort ∧
  decode [0x71, 0x03, 0x00] = .error .tooLong
end

