-- ==== Sys2Proof/Laws/Bytes.lean ====
section
/-! SUPPORT. The lemmas of Machine/Bytes.lean: a field and its bytes, reversal, and the byte order of numbers. -/

namespace Sys2Proof

@[simp] theorem zeros_length (n : Nat) : (zeros n).length = n := by simp [zeros]

@[simp] theorem Bytes2.toList_length (v : Bytes2) : v.toList.length = 2 := rfl
@[simp] theorem Bytes3.toList_length (v : Bytes3) : v.toList.length = 3 := rfl
@[simp] theorem Bytes4.toList_length (v : Bytes4) : v.toList.length = 4 := rfl
@[simp] theorem Bytes8.toList_length (v : Bytes8) : v.toList.length = 8 := rfl
@[simp] theorem Block.toList_length (b : Block) : b.toList.length = 16 := rfl

@[simp] theorem Bytes2.rev_rev (v : Bytes2) : v.rev.rev = v := rfl
@[simp] theorem Bytes3.rev_rev (v : Bytes3) : v.rev.rev = v := rfl
@[simp] theorem Bytes4.rev_rev (v : Bytes4) : v.rev.rev = v := rfl
@[simp] theorem Bytes8.rev_rev (v : Bytes8) : v.rev.rev = v := rfl

@[simp] theorem Bytes2.ofBytes_toList (v : Bytes2) : Bytes2.ofBytes v.toList = v := rfl
@[simp] theorem Bytes4.ofBytes_toList (v : Bytes4) : Bytes4.ofBytes v.toList = v := rfl
@[simp] theorem Bytes8.ofBytes_toList (v : Bytes8) : Bytes8.ofBytes v.toList = v := rfl
@[simp] theorem Block.ofBytes_toList (b : Block) : Block.ofBytes b.toList = b := rfl

theorem Bytes2.toList_ofBytes {B : List Byte} (h : B.length = 2) : (Bytes2.ofBytes B).toList = B := by
  obtain ⟨a, b, rfl⟩ : ∃ a b, B = [a, b] := List.length_eq_two.mp h
  rfl

theorem Bytes4.toList_ofBytes {B : List Byte} (h : B.length = 4) : (Bytes4.ofBytes B).toList = B := by
  match B, h with
  | [_, _, _, _], _ => rfl

theorem Bytes8.toList_ofBytes {B : List Byte} (h : B.length = 8) : (Bytes8.ofBytes B).toList = B := by
  match B, h with
  | [_, _, _, _, _, _, _, _], _ => rfl

theorem Block.toList_ofBytes {B : List Byte} (h : B.length = 16) : (Block.ofBytes B).toList = B := by
  match B, h with
  | [_, _, _, _, _, _, _, _, _, _, _, _, _, _, _, _], _ => rfl

theorem Bytes4.toList_inj {v w : Bytes4} : v.toList = w.toList ↔ v = w :=
  ⟨fun h => by simpa using congrArg Bytes4.ofBytes h, fun h => h ▸ rfl⟩

theorem Block.toList_inj {a b : Block} : a.toList = b.toList ↔ a = b :=
  ⟨fun h => by simpa using congrArg Block.ofBytes h, fun h => h ▸ rfl⟩

@[simp] theorem Bytes4.xor_self_cancel (v w : Bytes4) : (v.xor w).xor w = v := by
  simp [Bytes4.xor]

@[simp] theorem Block.xor_self_cancel (a b : Block) : (a.xor b).xor b = a := by simp [Block.xor]

@[simp] theorem le16_length (v : U16) : (le16 v).length = 2 := rfl
@[simp] theorem le32_length (v : U32) : (le32 v).length = 4 := rfl

/-- R8: `u16le(le16(v)) = v`. -/
@[simp] theorem u16le_le16 (v : U16) : u16le (v.extractLsb' 0 8) (v.extractLsb' 8 8) = v := by
  apply BitVec.eq_of_toNat_eq
  simp only [u16le, BitVec.toNat_append, BitVec.extractLsb'_toNat, Nat.shiftRight_eq_div_pow]
  have := v.isLt
  rw [Nat.shiftLeft_eq, Nat.mul_comm, ← Nat.two_pow_add_eq_or_of_lt (by omega)]
  omega

/-- R8: `le16(u16le(B)) = B`. -/
@[simp] theorem le16_u16le (x0 x1 : Byte) : le16 (u16le x0 x1) = [x0, x1] := by
  simp only [le16, List.cons.injEq, and_true]
  constructor <;> apply BitVec.eq_of_toNat_eq <;>
    simp only [u16le, BitVec.toNat_append, BitVec.extractLsb'_toNat, Nat.shiftRight_eq_div_pow] <;>
    rw [Nat.shiftLeft_eq, Nat.mul_comm, ← Nat.two_pow_add_eq_or_of_lt x0.isLt] <;>
    have := x0.isLt <;> have := x1.isLt <;> omega

/-- R8: `u32le(le32(v)) = v`. -/
@[simp] theorem u32le_le32 (v : U32) :
    u32le (v.extractLsb' 0 8) (v.extractLsb' 8 8) (v.extractLsb' 16 8) (v.extractLsb' 24 8) = v := by
  apply BitVec.eq_of_getLsbD_eq
  intro i hi
  rw [u32le, BitVec.getLsbD_append, BitVec.getLsbD_append, BitVec.getLsbD_append]
  simp only [BitVec.getLsbD_extractLsb']
  interval_cases i <;> simp

/-- R8: `le32(u32le(B)) = B`. -/
@[simp] theorem le32_u32le (x0 x1 x2 x3 : Byte) : le32 (u32le x0 x1 x2 x3) = [x0, x1, x2, x3] := by
  simp only [le32, List.cons.injEq, and_true]
  refine ⟨?_, ?_, ?_, ?_⟩ <;> apply BitVec.eq_of_getLsbD_eq <;> intro i hi <;>
    rw [BitVec.getLsbD_extractLsb', u32le, BitVec.getLsbD_append, BitVec.getLsbD_append, BitVec.getLsbD_append] <;>
    interval_cases i <;> simp

/-- R8: the two bytes of a number, by division. -/
theorem le16_eq (v : U16) : le16 v = [BitVec.ofNat 8 v.toNat, BitVec.ofNat 8 (v.toNat / 2 ^ 8)] := by
  simp only [le16, List.cons.injEq, and_true]
  constructor <;> apply BitVec.eq_of_toNat_eq <;> simp [Nat.shiftRight_eq_div_pow]

/-- R8: the four bytes of a number, by division. -/
theorem le32_eq (v : U32) :
    le32 v = [BitVec.ofNat 8 v.toNat, BitVec.ofNat 8 (v.toNat / 2 ^ 8), BitVec.ofNat 8 (v.toNat / 2 ^ 16),
      BitVec.ofNat 8 (v.toNat / 2 ^ 24)] := by
  simp only [le32, List.cons.injEq, and_true]
  refine ⟨?_, ?_, ?_, ?_⟩ <;> apply BitVec.eq_of_toNat_eq <;> simp [Nat.shiftRight_eq_div_pow]

@[simp] theorem flagByte_true : flagByte true = 0x01 := rfl
@[simp] theorem flagByte_false : flagByte false = 0x00 := rfl

@[simp] theorem slice_length (B : List Byte) (i j : Nat) (h : j ≤ B.length) : (slice B i j).length = j - i := by
  simp [slice]; omega

end Sys2Proof
end

