-- ==== Sys2Proof/Laws/Cipher.lean ====
section
/-! SUPPORT. The cipher's results as data: the truncated tag, the length of a keystream, and the two blocks that the
tag and the key derivation start from, byte by byte. -/

namespace Sys2Proof.Machine

/-- R135: the tag is the first four of the sixteen bytes. -/
theorem truncateTag_toList (b : Block) : (truncateTag b).toList = b.toList.take 4 := rfl

/-- R135: the tag as the field that the sixteen bytes begin with. -/
theorem truncateTag_eq (b : Block) : truncateTag b = Bytes4.ofBytes (b.toList.take 4) := rfl

/-- R150: whole blocks, so the length is a multiple of 16. -/
theorem keystream_length (key : Block) (cnt : U32) (dir : Dir) (addr : Bytes4) (n : Nat) :
    (keystream key cnt dir addr n).length = 16 * ((n + 15) / 16) := by
  unfold keystream
  generalize (n + 15) / 16 = m
  induction m with
  | zero => rfl
  | succ m ih => rw [List.range_succ, List.flatMap_append, List.length_append, ih]; simp; omega

/-- R151, R152: the transformed data has the length of the data. -/
@[simp] theorem ctr_length (data : List Byte) (cnt : U32) (addr : Bytes4) (key : Block) (dir : Dir) :
    (ctr data cnt addr key dir).length = data.length := by
  simp [ctr, keystream_length]; omega

/-- R79: the prefix block, byte by byte. -/
theorem micPrefixBlock_eq (cnt : U32) (dir : Dir) (addr : Bytes4) (n : Nat) :
    micPrefixBlock cnt dir addr n =
      [0x49, 0, 0, 0, 0, dir.toByte, addr.b3, addr.b2, addr.b1, addr.b0] ++ le32 cnt ++ [0, BitVec.ofNat 8 n] := rfl

/-- R78, R161: a derived key is the encryption of the derivation block. -/
theorem kdf_eq (flavor : Flavor) (root : Block) (j n : Bytes3) (d : Bytes2) :
    kdf flavor root j n d = aesEnc root
      ⟨⟨flavor.toByte, j.b2, j.b1, j.b0⟩, ⟨n.b2, n.b1, n.b0, d.b1⟩, ⟨d.b0, 0, 0, 0⟩, ⟨0, 0, 0, 0⟩⟩ := rfl

end Sys2Proof.Machine
end

