-- ==== Sys2Proof/Laws/Codec.lean ====
section
/-! SUPPORT. What a decoder of the wire can answer, and the lengths of what the encoders write. -/

namespace Sys2Proof.Machine

@[simp] theorem FrameType.ofByte_toByte (t : FrameType) : frameTypeOf t.toByte = some t := by cases t <;> decide

/-- R71: the six type bytes and no other. -/
theorem frameTypeOf_eq_some {b : Byte} {t : FrameType} : frameTypeOf b = some t ↔ b = t.toByte := by
  constructor
  · intro h
    unfold frameTypeOf at h
    split_ifs at h <;> cases h <;> assumption
  · rintro rfl; simp

/-- R170: what a string that decodes is. -/
theorem frmDec_ok {raw : List Byte} {f : Frame} (h : frmDec raw = .ok f) :
    raw = f.type.toByte :: (f.payload ++ f.tag.toList) ∧ 7 ≤ f.payload.length ∧ f.payload.length ≤ 59 := by
  unfold frmDec at h
  split_ifs at h with hl
  simp only [frameMin, frameMax, not_or, not_lt] at hl
  split at h
  · cases h
  · rename_i t ht
    cases h
    rw [frameTypeOf_eq_some] at ht
    match raw, hl, ht with
    | b :: rest, hl, ht =>
      simp only [List.length_cons] at hl
      simp only [byteAt, List.getD_cons_zero] at ht
      subst ht
      have e1 : slice (t.toByte :: rest) 1 (rest.length + 1 - 4) = rest.take (rest.length - 4) := by
        simp only [slice, List.drop_succ_cons, List.drop_zero]; congr 1
      have e2 : slice (t.toByte :: rest) (rest.length + 1 - 4) (rest.length + 1) = rest.drop (rest.length - 4) := by
        have : rest.length + 1 - 4 = (rest.length - 4) + 1 := by omega
        simp only [slice, this, List.drop_succ_cons]
        apply List.take_of_length_le
        simp
      simp only [List.length_cons, e1, e2, List.length_take]
      refine ⟨?_, by omega, by omega⟩
      rw [Bytes4.toList_ofBytes (by simp; omega), List.take_append_drop]

/-- R70, R171: the encoder writes one byte, the payload and four bytes. -/
@[simp] theorem frmEnc_length (type : Byte) (payload : List Byte) (tag : Bytes4) :
    (frmEnc type payload tag).length = payload.length + 5 := by simp [frmEnc]

/-- R72: the options length is below 16. -/
theorem optsLength_eq (c : Byte) : optsLength c = c.toNat % 16 := by
  simp [optsLength, BitVec.toNat_and, Nat.and_two_pow_sub_one_eq_mod c.toNat 4]

/-- R172, R174: the length that a record encodes to. -/
theorem macEnc_length (m : MacPayload) : (macEnc m).length = m.encodedLength := by
  cases hp : m.port <;> simp_all [macEnc, MacPayload.encodedLength, MacPayload.portBytes, macHeaderBytes] <;> omega

/-- R173: the two failures of the inner decoder. -/
theorem macDec_error {p : List Byte} {e : LocalFail} :
    macDec p = .error e ↔ (p.length < 7 ∧ e = .lengthOutOfBounds) ∨
      (7 ≤ p.length ∧ p.length < 7 + optsLength (byteAt p 4) ∧ e = .optsExceedBuffer) := by
  unfold macDec
  dsimp only
  by_cases h1 : p.length < macHeaderBytes
  · have : p.length < 7 := h1
    simp [h1, this, eq_comm]
  · have h1' : 7 ≤ p.length := Nat.le_of_not_lt h1
    rw [if_neg h1]
    by_cases h2 : p.length < macHeaderBytes + optsLength (byteAt p 4)
    · have : p.length < 7 + optsLength (byteAt p 4) := h2
      simp [h2, h1', this, eq_comm]
    · have : ¬ p.length < 7 + optsLength (byteAt p 4) := h2
      rw [if_neg h2]
      simp [this]; omega

/-- R173: the fields of a record that decodes. -/
theorem macDec_ok {p : List Byte} {m : MacPayload} (h : macDec p = .ok m) :
    ∃ a3 a2 a1 a0 c x y rest, p = a3 :: a2 :: a1 :: a0 :: c :: x :: y :: rest ∧
      optsLength c ≤ rest.length ∧
      m = { addr := ⟨a0, a1, a2, a3⟩, pending := c.getLsbD 4, ack := c.getLsbD 5, adrAckReq := c.getLsbD 6
            adr := c.getLsbD 7, fcnt16 := u16le x y, opts := rest.take (optsLength c)
            port := (rest.drop (optsLength c)).head?, app := (rest.drop (optsLength c)).tail } := by
  unfold macDec at h
  split at h
  · cases h
  rename_i h1
  dsimp only at h
  split at h
  · cases h
  rename_i h2
  have h1 : 7 ≤ p.length := Nat.le_of_not_lt h1
  obtain ⟨a3, a2, a1, a0, c, x, y, rest, rfl⟩ : ∃ a3 a2 a1 a0 c x y rest,
      p = a3 :: a2 :: a1 :: a0 :: c :: x :: y :: rest := by
    match p, h1 with
    | a3 :: a2 :: a1 :: a0 :: c :: x :: y :: rest, _ => exact ⟨_, _, _, _, _, _, _, _, rfl⟩
  have hc : byteAt (a3 :: a2 :: a1 :: a0 :: c :: x :: y :: rest) 4 = c := rfl
  rw [hc] at h h2
  simp only [macHeaderBytes, List.length_cons] at h2
  refine ⟨a3, a2, a1, a0, c, x, y, rest, rfl, by omega, ?_⟩
  cases h
  generalize optsLength c = L at h2
  have e1 : slice (a3 :: a2 :: a1 :: a0 :: c :: x :: y :: rest) 7 (7 + L) = rest.take L := by
    simp [slice]
  have e2 : byteAt (a3 :: a2 :: a1 :: a0 :: c :: x :: y :: rest) (7 + L) = rest.getD L 0 := by
    rw [Nat.add_comm]; rfl
  have e3 : slice (a3 :: a2 :: a1 :: a0 :: c :: x :: y :: rest) (8 + L)
      (a3 :: a2 :: a1 :: a0 :: c :: x :: y :: rest).length = (rest.drop L).tail := by
    have : (a3 :: a2 :: a1 :: a0 :: c :: x :: y :: rest).drop (8 + L) = rest.drop (L + 1) := by
      rw [show 8 + L = L + 1 + 7 by omega]; rfl
    rw [slice, this, List.tail_drop]
    apply List.take_of_length_le; simp; omega
  rw [e1, e2, e3]
  congr 1
  · by_cases hl : L < rest.length
    · simp [hl, Nat.add_comm 7 L]
    · simp [hl, Nat.add_comm 7 L, List.drop_of_length_le (Nat.le_of_not_lt hl)]
  · by_cases hl : L < rest.length
    · simp [hl, Nat.add_comm 7 L]
    · simp [hl, Nat.add_comm 7 L, List.drop_of_length_le (Nat.le_of_not_lt hl)]

/-- R176: the fields of a join request that decodes. -/
theorem jreqDec_ok {p : List Byte} {j : JoinRequest} (h : jreqDec p = .ok j) :
    p = j.appEui.rev.toList ++ j.devEui.rev.toList ++ j.devNonce.rev.toList := by
  unfold jreqDec at h
  split at h
  · cases h
  rename_i hl
  simp only [jreqBytes] at hl
  cases h
  have hl : p.length = 18 := by omega
  simp only [Bytes8.rev_rev, Bytes2.rev_rev]
  rw [Bytes8.toList_ofBytes (by simp [slice]; omega), Bytes8.toList_ofBytes (by simp [slice]; omega),
    Bytes2.toList_ofBytes (by simp [slice]; omega)]
  match p, hl with
  | [_, _, _, _, _, _, _, _, _, _, _, _, _, _, _, _, _, _], _ => rfl

/-- R176: every other length fails. -/
theorem jreqDec_error {p : List Byte} {e : LocalFail} :
    jreqDec p = .error e ↔ p.length ≠ 18 ∧ e = .lengthOutOfBounds := by
  unfold jreqDec
  split <;> simp_all [jreqBytes, eq_comm]

end Sys2Proof.Machine
end

