-- ==== Sys2Proof/Laws/State.lean ====
section
/-! SUPPORT. One lemma per field per update of the state, and the lemmas of the draw. -/

namespace Sys2Proof.Machine

@[simp] theorem State.respond_ident (s : State) (b : List Byte) : (s.respond b).ident = s.ident := rfl
@[simp] theorem State.respond_session (s : State) (b : List Byte) : (s.respond b).session = s.session := rfl
@[simp] theorem State.respond_sessionValid (s : State) (b : List Byte) : (s.respond b).sessionValid = s.sessionValid := rfl
@[simp] theorem State.respond_joinEn (s : State) (b : List Byte) : (s.respond b).joinEn = s.joinEn := rfl
@[simp] theorem State.respond_deliverEn (s : State) (b : List Byte) : (s.respond b).deliverEn = s.deliverEn := rfl
@[simp] theorem State.respond_response (s : State) (b : List Byte) : (s.respond b).response = b := rfl
@[simp] theorem State.respond_events (s : State) (b : List Byte) : (s.respond b).events = s.events := rfl
@[simp] theorem State.respond_draws (s : State) (b : List Byte) : (s.respond b).draws = s.draws := rfl
@[simp] theorem State.respond_drawCount (s : State) (b : List Byte) : (s.respond b).drawCount = s.drawCount := rfl
@[simp] theorem State.respond_host (s : State) (b : List Byte) : (s.respond b).host = s.host := rfl

@[simp] theorem State.raise_ident (s : State) (evs : List Event) : (s.raise evs).ident = s.ident := rfl
@[simp] theorem State.raise_session (s : State) (evs : List Event) : (s.raise evs).session = s.session := rfl
@[simp] theorem State.raise_sessionValid (s : State) (evs : List Event) : (s.raise evs).sessionValid = s.sessionValid := rfl
@[simp] theorem State.raise_joinEn (s : State) (evs : List Event) : (s.raise evs).joinEn = s.joinEn := rfl
@[simp] theorem State.raise_deliverEn (s : State) (evs : List Event) : (s.raise evs).deliverEn = s.deliverEn := rfl
@[simp] theorem State.raise_response (s : State) (evs : List Event) : (s.raise evs).response = s.response := rfl
@[simp] theorem State.raise_events (s : State) (evs : List Event) : (s.raise evs).events = s.events ++ evs := rfl
@[simp] theorem State.raise_draws (s : State) (evs : List Event) : (s.raise evs).draws = s.draws := rfl
@[simp] theorem State.raise_drawCount (s : State) (evs : List Event) : (s.raise evs).drawCount = s.drawCount := rfl
@[simp] theorem State.raise_host (s : State) (evs : List Event) : (s.raise evs).host = s.host := rfl

@[simp] theorem State.returnEvent_ident (s : State) : (s.returnEvent).ident = s.ident := rfl
@[simp] theorem State.returnEvent_session (s : State) : (s.returnEvent).session = s.session := rfl
@[simp] theorem State.returnEvent_sessionValid (s : State) : (s.returnEvent).sessionValid = s.sessionValid := rfl
@[simp] theorem State.returnEvent_joinEn (s : State) : (s.returnEvent).joinEn = s.joinEn := rfl
@[simp] theorem State.returnEvent_deliverEn (s : State) : (s.returnEvent).deliverEn = s.deliverEn := rfl
@[simp] theorem State.returnEvent_response (s : State) : (s.returnEvent).response = s.response := rfl
@[simp] theorem State.returnEvent_events (s : State) : (s.returnEvent).events = s.events.tail := rfl
@[simp] theorem State.returnEvent_draws (s : State) : (s.returnEvent).draws = s.draws := rfl
@[simp] theorem State.returnEvent_drawCount (s : State) : (s.returnEvent).drawCount = s.drawCount := rfl
@[simp] theorem State.returnEvent_host (s : State) : (s.returnEvent).host = s.host := rfl

@[simp] theorem State.withHost_ident (s : State) (moves : List HostMove) : (s.withHost moves).ident = s.ident := rfl
@[simp] theorem State.withHost_session (s : State) (moves : List HostMove) : (s.withHost moves).session = s.session := rfl
@[simp] theorem State.withHost_sessionValid (s : State) (moves : List HostMove) : (s.withHost moves).sessionValid = s.sessionValid := rfl
@[simp] theorem State.withHost_joinEn (s : State) (moves : List HostMove) : (s.withHost moves).joinEn = s.joinEn := rfl
@[simp] theorem State.withHost_deliverEn (s : State) (moves : List HostMove) : (s.withHost moves).deliverEn = s.deliverEn := rfl
@[simp] theorem State.withHost_response (s : State) (moves : List HostMove) : (s.withHost moves).response = s.response := rfl
@[simp] theorem State.withHost_events (s : State) (moves : List HostMove) : (s.withHost moves).events = s.events := rfl
@[simp] theorem State.withHost_draws (s : State) (moves : List HostMove) : (s.withHost moves).draws = s.draws := rfl
@[simp] theorem State.withHost_drawCount (s : State) (moves : List HostMove) : (s.withHost moves).drawCount = s.drawCount := rfl
@[simp] theorem State.withHost_host (s : State) (moves : List HostMove) : (s.withHost moves).host = moves := rfl

@[simp] theorem State.withFcntUp_ident (s : State) (v : U32) : (s.withFcntUp v).ident = s.ident := rfl
@[simp] theorem State.withFcntUp_session (s : State) (v : U32) : (s.withFcntUp v).session = { s.session with fcntUp := v } := rfl
@[simp] theorem State.withFcntUp_sessionValid (s : State) (v : U32) : (s.withFcntUp v).sessionValid = s.sessionValid := rfl
@[simp] theorem State.withFcntUp_joinEn (s : State) (v : U32) : (s.withFcntUp v).joinEn = s.joinEn := rfl
@[simp] theorem State.withFcntUp_deliverEn (s : State) (v : U32) : (s.withFcntUp v).deliverEn = s.deliverEn := rfl
@[simp] theorem State.withFcntUp_response (s : State) (v : U32) : (s.withFcntUp v).response = s.response := rfl
@[simp] theorem State.withFcntUp_events (s : State) (v : U32) : (s.withFcntUp v).events = s.events := rfl
@[simp] theorem State.withFcntUp_draws (s : State) (v : U32) : (s.withFcntUp v).draws = s.draws := rfl
@[simp] theorem State.withFcntUp_drawCount (s : State) (v : U32) : (s.withFcntUp v).drawCount = s.drawCount := rfl
@[simp] theorem State.withFcntUp_host (s : State) (v : U32) : (s.withFcntUp v).host = s.host := rfl

@[simp] theorem State.bumpFcntDown_ident (s : State) : (s.bumpFcntDown).ident = s.ident := rfl
@[simp] theorem State.bumpFcntDown_session (s : State) : (s.bumpFcntDown).session = { s.session with fcntDown := s.session.fcntDown + 1 } := rfl
@[simp] theorem State.bumpFcntDown_sessionValid (s : State) : (s.bumpFcntDown).sessionValid = s.sessionValid := rfl
@[simp] theorem State.bumpFcntDown_joinEn (s : State) : (s.bumpFcntDown).joinEn = s.joinEn := rfl
@[simp] theorem State.bumpFcntDown_deliverEn (s : State) : (s.bumpFcntDown).deliverEn = s.deliverEn := rfl
@[simp] theorem State.bumpFcntDown_response (s : State) : (s.bumpFcntDown).response = s.response := rfl
@[simp] theorem State.bumpFcntDown_events (s : State) : (s.bumpFcntDown).events = s.events := rfl
@[simp] theorem State.bumpFcntDown_draws (s : State) : (s.bumpFcntDown).draws = s.draws := rfl
@[simp] theorem State.bumpFcntDown_drawCount (s : State) : (s.bumpFcntDown).drawCount = s.drawCount := rfl
@[simp] theorem State.bumpFcntDown_host (s : State) : (s.bumpFcntDown).host = s.host := rfl

@[simp] theorem State.withSession_ident (s : State) (r : Session) : (s.withSession r).ident = s.ident := rfl
@[simp] theorem State.withSession_session (s : State) (r : Session) : (s.withSession r).session = r := rfl
@[simp] theorem State.withSession_sessionValid (s : State) (r : Session) : (s.withSession r).sessionValid = true := rfl
@[simp] theorem State.withSession_joinEn (s : State) (r : Session) : (s.withSession r).joinEn = s.joinEn := rfl
@[simp] theorem State.withSession_deliverEn (s : State) (r : Session) : (s.withSession r).deliverEn = s.deliverEn := rfl
@[simp] theorem State.withSession_response (s : State) (r : Session) : (s.withSession r).response = s.response := rfl
@[simp] theorem State.withSession_events (s : State) (r : Session) : (s.withSession r).events = s.events := rfl
@[simp] theorem State.withSession_draws (s : State) (r : Session) : (s.withSession r).draws = s.draws := rfl
@[simp] theorem State.withSession_drawCount (s : State) (r : Session) : (s.withSession r).drawCount = s.drawCount := rfl
@[simp] theorem State.withSession_host (s : State) (r : Session) : (s.withSession r).host = s.host := rfl

@[simp] theorem State.withEnables_ident (s : State) (j d : Bool) : (s.withEnables j d).ident = s.ident := rfl
@[simp] theorem State.withEnables_session (s : State) (j d : Bool) : (s.withEnables j d).session = s.session := rfl
@[simp] theorem State.withEnables_sessionValid (s : State) (j d : Bool) : (s.withEnables j d).sessionValid = s.sessionValid := rfl
@[simp] theorem State.withEnables_joinEn (s : State) (j d : Bool) : (s.withEnables j d).joinEn = j := rfl
@[simp] theorem State.withEnables_deliverEn (s : State) (j d : Bool) : (s.withEnables j d).deliverEn = d := rfl
@[simp] theorem State.withEnables_response (s : State) (j d : Bool) : (s.withEnables j d).response = s.response := rfl
@[simp] theorem State.withEnables_events (s : State) (j d : Bool) : (s.withEnables j d).events = s.events := rfl
@[simp] theorem State.withEnables_draws (s : State) (j d : Bool) : (s.withEnables j d).draws = s.draws := rfl
@[simp] theorem State.withEnables_drawCount (s : State) (j d : Bool) : (s.withEnables j d).drawCount = s.drawCount := rfl
@[simp] theorem State.withEnables_host (s : State) (j d : Bool) : (s.withEnables j d).host = s.host := rfl

@[simp] theorem State.drop_ident (s : State) : (s.drop).ident = s.ident := rfl
@[simp] theorem State.drop_session (s : State) : (s.drop).session = s.session := rfl
@[simp] theorem State.drop_sessionValid (s : State) : (s.drop).sessionValid = s.sessionValid := rfl
@[simp] theorem State.drop_joinEn (s : State) : (s.drop).joinEn = s.joinEn := rfl
@[simp] theorem State.drop_deliverEn (s : State) : (s.drop).deliverEn = s.deliverEn := rfl
@[simp] theorem State.drop_response (s : State) : (s.drop).response = [] := rfl
@[simp] theorem State.drop_events (s : State) : (s.drop).events = s.events := rfl
@[simp] theorem State.drop_draws (s : State) : (s.drop).draws = s.draws := rfl
@[simp] theorem State.drop_drawCount (s : State) : (s.drop).drawCount = s.drawCount := rfl
@[simp] theorem State.drop_host (s : State) : (s.drop).host = s.host := rfl

@[simp] theorem State.withCommand_ident (s : State) (b : List Byte) : (s.withCommand b).ident = s.ident := rfl
@[simp] theorem State.withCommand_session (s : State) (b : List Byte) : (s.withCommand b).session = s.session := rfl
@[simp] theorem State.withCommand_sessionValid (s : State) (b : List Byte) : (s.withCommand b).sessionValid = s.sessionValid := rfl
@[simp] theorem State.withCommand_joinEn (s : State) (b : List Byte) : (s.withCommand b).joinEn = s.joinEn := rfl
@[simp] theorem State.withCommand_deliverEn (s : State) (b : List Byte) : (s.withCommand b).deliverEn = s.deliverEn := rfl
@[simp] theorem State.withCommand_response (s : State) (b : List Byte) : (s.withCommand b).response = s.response := rfl
@[simp] theorem State.withCommand_events (s : State) (b : List Byte) : (s.withCommand b).events = [] := rfl
@[simp] theorem State.withCommand_draws (s : State) (b : List Byte) : (s.withCommand b).draws = s.draws := rfl
@[simp] theorem State.withCommand_drawCount (s : State) (b : List Byte) : (s.withCommand b).drawCount = s.drawCount := rfl
@[simp] theorem State.withCommand_host (s : State) (b : List Byte) : (s.withCommand b).host = .issue b :: s.host := rfl

@[simp] theorem State.afterDraw_ident (s : State) : s.afterDraw.ident = s.ident := by unfold State.afterDraw; split <;> rfl
@[simp] theorem State.afterDraw_session (s : State) : s.afterDraw.session = s.session := by unfold State.afterDraw; split <;> rfl
@[simp] theorem State.afterDraw_sessionValid (s : State) : s.afterDraw.sessionValid = s.sessionValid := by unfold State.afterDraw; split <;> rfl
@[simp] theorem State.afterDraw_joinEn (s : State) : s.afterDraw.joinEn = s.joinEn := by unfold State.afterDraw; split <;> rfl
@[simp] theorem State.afterDraw_deliverEn (s : State) : s.afterDraw.deliverEn = s.deliverEn := by unfold State.afterDraw; split <;> rfl
@[simp] theorem State.afterDraw_response (s : State) : s.afterDraw.response = s.response := by unfold State.afterDraw; split <;> rfl
@[simp] theorem State.afterDraw_events (s : State) : s.afterDraw.events = s.events := by unfold State.afterDraw; split <;> rfl
@[simp] theorem State.afterDraw_host (s : State) : s.afterDraw.host = s.host := by unfold State.afterDraw; split <;> rfl

/-- R21: a draw takes the next of the draws supplied, or else advances the counter of the free values. -/
theorem State.afterDraw_cases (s : State) :
    (∃ d ds, s.draws = d :: ds ∧ s.nextDraw = d ∧ s.afterDraw = { s with draws := ds }) ∨
    (s.draws = [] ∧ s.nextDraw = Config.freeNonce s.drawCount ∧
      s.afterDraw = { s with drawCount := s.drawCount + 1 }) := by
  unfold State.nextDraw State.afterDraw
  split
  · exact .inl ⟨_, _, ‹_›, rfl, rfl⟩
  · exact .inr ⟨‹_›, rfl, rfl⟩

theorem State.busy_eq_false {s : State} : s.busy = false ↔ s.events = [] := by
  simp [State.busy]

@[simp] theorem State.raise_nil (s : State) : s.raise [] = s := by simp [State.raise]

end Sys2Proof.Machine
end

