-- ==== Sys2Proof/Laws/Ops.lean ====
section
/-! SUPPORT. What the shared outcomes of Machine/Ops.lean and the operand checks can be: one lemma each. -/

namespace Sys2Proof.Machine

/-- R266: with no issue the command goes on. -/
@[simp] theorem require_none (k : Out) : require none k = k := rfl

/-- R266: with an issue it is refused by that name. -/
@[simp] theorem require_some (e : IllFormed) (k : Out) : require (some e) k = .refused (.illFormed e) := rfl

theorem require_eq_next {issue : Option IllFormed} {k : Out} {t : State} :
    require issue k = .next t ↔ issue = none ∧ k = .next t := by
  cases issue <;> simp [require]

/-- What an outcome behind a check can be. -/
theorem require_cases (issue : Option IllFormed) (k : Out) :
    (issue = none ∧ require issue k = k) ∨ ∃ e, issue = some e ∧ require issue k = .refused (.illFormed e) := by
  cases issue <;> simp

/-- R61, R18: what a command that answers OK leaves. -/
theorem reply_eq (results : List Byte) (s : State) :
    reply results s = .next { s with response := 0x00 :: results } := rfl

/-- R265: a CHECK command answers OK with its results or the one byte FAIL, and changes nothing else. -/
theorem checkReply_cases (outcome : Except LocalFail (List Byte)) (s : State) :
    (∃ results, outcome = .ok results ∧ checkReply outcome s = .next { s with response := 0x00 :: results }) ∨
    (∃ e, outcome = .error e ∧ checkReply outcome s = .next { s with response := [0x01] }) := by
  cases outcome with
  | ok r => exact .inl ⟨r, rfl, rfl⟩
  | error e => exact .inr ⟨e, rfl, rfl⟩

@[simp] theorem checkReply_ok (results : List Byte) (s : State) :
    checkReply (.ok results) s = .next { s with response := 0x00 :: results } := rfl

@[simp] theorem checkReply_error (e : LocalFail) (s : State) :
    checkReply (.error e) s = .next { s with response := [0x01] } := rfl

/-- R260: a reception either gives the state of its branch or is a silent drop. -/
theorem settle_cases (outcome : Except DropCause State) (s : State) :
    (∃ t, outcome = .ok t ∧ settle outcome s = .next (t.respond [])) ∨
    (∃ cause, outcome = .error cause ∧ settle outcome s = .next s.drop) := by
  cases outcome with
  | ok t => exact .inl ⟨t, rfl, rfl⟩
  | error e => exact .inr ⟨e, rfl, rfl⟩

@[simp] theorem settle_ok (t s : State) : settle (.ok t) s = .next (t.respond []) := rfl
@[simp] theorem settle_error (cause : DropCause) (s : State) : settle (.error cause) s = .next s.drop := rfl

/-! The operand checks. -/

@[simp] theorem need_eq_none {ok : Bool} {e : IllFormed} : need ok e = none ↔ ok = true := by
  unfold need; split <;> simp_all

@[simp] theorem needLen_eq_none {cap : Nat} {B : List Byte} {e : IllFormed} :
    needLen cap B e = none ↔ B.length ≤ cap := by
  simp [needLen]

@[simp] theorem needDir_eq_none {dir : Byte} : needDir dir = none ↔ dir = 0 ∨ dir = 1 := by
  simp [needDir]

@[simp] theorem checkMsg_eq_none {msg : List Byte} : checkMsg msg = none ↔ msg.length ≤ 255 := by
  simp [checkMsg, varMax]

@[simp] theorem checkRaw_eq_none {raw : List Byte} : checkRaw raw = none ↔ raw.length ≤ 255 := by
  simp [checkRaw, varMax]

@[simp] theorem checkMicData_eq_none {dir : Byte} {msg : List Byte} :
    checkMicData dir msg = none ↔ (dir = 0 ∨ dir = 1) ∧ msg.length ≤ 239 := by
  simp [checkMicData, micMsgMax]

@[simp] theorem checkCtr_eq_none {dir : Byte} {data : List Byte} :
    checkCtr dir data = none ↔ (dir = 0 ∨ dir = 1) ∧ data.length ≤ 255 := by
  simp [checkCtr, varMax]

@[simp] theorem checkFlavor_eq_none {flavor : Byte} : checkFlavor flavor = none ↔ flavor = 1 ∨ flavor = 2 := by
  simp [checkFlavor]

@[simp] theorem checkFrmEnc_eq_none {payload : List Byte} :
    checkFrmEnc payload = none ↔ 7 ≤ payload.length ∧ payload.length ≤ 59 := by
  simp only [checkFrmEnc, Option.or_eq_none_iff, needLen_eq_none, need_eq_none, decide_eq_true_eq]
  simp [framePayloadMin, framePayloadMax, and_comm]

@[simp] theorem checkPayload_eq_none {payload : List Byte} : checkPayload payload = none ↔ payload.length ≤ 59 := by
  simp [checkPayload, framePayloadMax]

@[simp] theorem checkFramePayload_eq_none {payload : List Byte} :
    checkFramePayload payload = none ↔ 7 ≤ payload.length ∧ payload.length ≤ 59 := by
  simp only [checkFramePayload, need_eq_none, Bool.and_eq_true, decide_eq_true_eq]
  rfl

@[simp] theorem checkRssi_eq_none {rssi : U16} : checkRssi rssi = none ↔ rssi.toInt ≤ 135 := by
  simp only [checkRssi, need_eq_none, decide_eq_true_eq]
  rfl

@[simp] theorem checkRx_eq_none {raw : List Byte} {rssi : U16} :
    checkRx raw rssi = none ↔ raw.length ≤ 255 ∧ rssi.toInt ≤ 135 := by
  simp [checkRx]

@[simp] theorem checkCfg_eq_none {cfg : Byte} : checkCfg cfg = none ↔ cfg &&& 0xFC = 0 := by
  simp [checkCfg]

/-- R174: the operands that MAC.ENC takes. -/
theorem checkMacEnc_eq_none {addr : Bytes4} {flags : Byte} {fcnt16 : U16} {opts : List Byte} {hasPort : Bool}
    {port : Byte} {app : List Byte} :
    checkMacEnc addr flags fcnt16 opts hasPort port app = none ↔
      flags &&& 0x0F = 0 ∧ opts.length ≤ 15 ∧ (hasPort = true ∨ port = 0 ∧ app = []) ∧
        7 + opts.length + (if hasPort then 1 + app.length else 0) ≤ 59 := by
  cases hasPort <;>
    simp [checkMacEnc, optsMax, framePayloadMax, MacPayload.encodedLength, macOperand, macHeaderBytes]

end Sys2Proof.Machine
end

