-- ==== Sys2Proof/Laws/Engine.lean ====
section
/-! SUPPORT. What the steps of a reception can do: one lemma per step of Machine/Engine.lean, and one that says
everything a reception that is not dropped has done. -/

namespace Sys2Proof.Machine

/-- R235: the two ways in which a frame passes the freshness check. -/
theorem freshness_ok {acc : U32} {sc sc' : State × Conditions} (h : freshness acc sc = .ok sc') :
    (acc = sc.1.session.fcntUp ∧ acc ≠ 0 ∧ sc' = (sc.1, { sc.2 with replay := true })) ∨
    ((sc.1.session.fcntUp < acc ∨ acc = 0 ∧ sc.1.session.fcntUp = 0) ∧
      sc' = (sc.1.withFcntUp acc, { sc.2 with dirty := true })) := by
  unfold freshness fcntClass at h
  split at h
  · cases h
  · rename_i hc
    split_ifs at hc with h1 h2
    cases h
    exact .inl ⟨h2.1, h2.1 ▸ h2.2, rfl⟩
  · rename_i hc
    split_ifs at hc with h1 h2
    cases h
    refine .inr ⟨?_, rfl⟩
    by_cases he : acc = sc.1.session.fcntUp
    · have h0 : sc.1.session.fcntUp = 0 := by simpa [he] using h2
      exact .inr ⟨he ▸ h0, h0⟩
    · left; simp only [BitVec.lt_def] at *
      have : acc.toNat ≠ sc.1.session.fcntUp.toNat := fun hh => he (BitVec.eq_of_toNat_eq hh)
      omega

/-- R235: the one way in which it does not. -/
theorem freshness_error {acc : U32} {sc : State × Conditions} {cause : DropCause} :
    freshness acc sc = .error cause ↔ acc < sc.1.session.fcntUp ∧ cause = .stale := by
  unfold freshness fcntClass
  by_cases h : acc < sc.1.session.fcntUp
  · simp [h, eq_comm]
  · by_cases h' : acc = sc.1.session.fcntUp ∧ sc.1.session.fcntUp ≠ 0
    · rw [if_neg h, if_pos h']; simp [h]
    · rw [if_neg h, if_neg h']; simp [h]

/-- R234: the counter reset, when its condition does not hold. -/
theorem forceReset_of_not {acc : U32} {ra : Bool} {sc : State × Conditions} (h : resetForced acc ra = false) :
    forceReset acc ra sc = sc := by simp [forceReset, h]

/-- R234: the counter reset, when its condition holds. -/
theorem forceReset_of {acc : U32} {ra : Bool} {sc : State × Conditions} (h : resetForced acc ra = true) :
    forceReset acc ra sc = (sc.1.withFcntUp 0, { sc.2 with dirty := true }) := by simp [forceReset, h]

theorem resetForced_eq_true {acc : U32} {ra : Bool} : resetForced acc ra = true ↔ acc = 0 ∧ ra = true := by
  simp [resetForced]

/-- R222 to R229: what the join branch does when it does not drop. -/
theorem joinPath_ok {f : Frame} {s t : State} (h : joinPath f s = .ok t) :
    ∃ j, jreqDec f.payload = .ok j ∧ j.appEui = s.ident.appEui ∧ j.devEui = s.ident.devEui ∧
      micPlain s.ident.rootKey (FrameType.joinRequest.toByte :: f.payload) = f.tag ∧ t = completeJoin j.devNonce s := by
  unfold joinPath at h
  split at h
  · cases h
  · rename_i j hj
    split_ifs at h with h1 h2
    cases h
    simp only [ne_eq, not_or, not_not] at h1 h2
    exact ⟨j, hj, h1.1, h1.2, h2, rfl⟩

/-- R230 to R243: what the data branch does when it does not drop. -/
theorem dataPath_ok {f : Frame} {rssi : U16} {ra : Bool} {s t : State} (h : dataPath f rssi ra s = .ok t) :
    ∃ m acc sc, s.sessionValid = true ∧ macDec f.payload = .ok m ∧ m.addr = s.session.devAddr ∧
      accept (fcntCand m.fcnt16 s.session.fcntUp ra) s.session.nwkSKey f.type.dir s.session.devAddr
        (f.type.toByte :: f.payload) f.tag = some acc ∧
      freshness acc (forceReset acc ra (s, Conditions.start)) = .ok sc ∧
      t = finishData f.type m acc rssi sc := by
  unfold dataPath at h
  split at h
  · cases h
  rename_i hv
  split at h
  · cases h
  rename_i m hm
  unfold dataSteps at h
  split at h
  · cases h
  rename_i ha
  split at h
  · cases h
  rename_i acc hacc
  split at h
  · cases h
  rename_i sc hsc
  cases h
  exact ⟨m, acc, sc, by simpa using hv, hm, by simpa using ha, hacc, hsc, rfl⟩

/-- R220, R221: what a reception that is not dropped is, a join or a data frame. -/
theorem receive_ok {raw : List Byte} {rssi : U16} {ra : Bool} {s t : State} (h : receive raw rssi ra s = .ok t) :
    ∃ f, frmDec raw = .ok f ∧
      ((f.type = .joinRequest ∧ s.joinEn = true ∧ joinPath f s = .ok t) ∨
       (f.type.isData = true ∧ dataPath f rssi ra s = .ok t)) := by
  unfold receive at h
  split at h
  · cases h
  rename_i f hf
  refine ⟨f, hf, ?_⟩
  unfold dispatchFrame at h
  split at h <;> rename_i ht
  · split at h
    · exact .inl ⟨ht, ‹_›, h⟩
    · cases h
  · cases h
  all_goals exact .inr ⟨by rw [ht]; rfl, h⟩

/-- R227: what a join leaves of the session, the enables and the identity. -/
theorem completeJoin_fields (n : Bytes2) (s : State) :
    (completeJoin n s).ident = s.ident ∧ (completeJoin n s).joinEn = s.joinEn ∧
    (completeJoin n s).deliverEn = s.deliverEn ∧ (completeJoin n s).host = s.host ∧
    (completeJoin n s).sessionValid = true ∧
    (completeJoin n s).session = joinedSession s.ident.rootKey s.nextDraw n s.session ∧
    (completeJoin n s).events = s.events ++
      [emitFrame (joinAcceptFrame s.ident.rootKey s.nextDraw s.session.devAddr) joinDelayMs,
       .save (joinedSession s.ident.rootKey s.nextDraw n s.session), .joined] := by
  simp [completeJoin, joinedSession]

/-- R240, R241: what the answer does to the state and the conditions. -/
theorem answer_cases (type : FrameType) (rssi : U16) (sc : State × Conditions) :
    (respondNeeded type sc.2 = false ∧ answer type rssi sc = (sc, [])) ∨
    (respondNeeded type sc.2 = true ∧ answer type rssi sc =
      ((sc.1.bumpFcntDown, { sc.2 with dirty := true }),
       [emitFrame (responseFrame sc.1.bumpFcntDown.session (type == .confirmedUp) sc.2.linkcheck rssi)
          dataDelayMs])) := by
  unfold answer
  by_cases h : respondNeeded type sc.2 = true
  · right; simp [h]
  · left; simp at h; simp [h]

/-- R237 to R243: the state that the steps after the freshness check leave: the downlink counter at most, and the
events in the order EMIT, SAVE, DELIVER. -/
theorem finishData_eq (type : FrameType) (m : MacPayload) (acc : U32) (rssi : U16) (sc : State × Conditions) :
    let m' := decryptApp m acc type.dir sc.1.session
    let c := { sc.2 with linkcheck := linkCheckSeen m' }
    let t := if respondNeeded type c then sc.1.bumpFcntDown else sc.1
    finishData type m acc rssi sc = t.raise
      ((if respondNeeded type c then
          [emitFrame (responseFrame t.session (type == .confirmedUp) c.linkcheck rssi) dataDelayMs] else []) ++
        (if sc.2.dirty || respondNeeded type c then [.save t.session] else []) ++ deliverEvents m' (t, c)) := by
  intro m' c t
  have key : finishData type m acc rssi sc =
      (fun a : (State × Conditions) × List Event =>
        a.1.1.raise (a.2 ++ saveEvents a.1 ++ deliverEvents m' a.1)) (answer type rssi (sc.1, c)) := rfl
  rcases answer_cases type rssi (sc.1, c) with ⟨hr, ha⟩ | ⟨hr, ha⟩
  · have hr : respondNeeded type c = false := hr
    have ht : t = sc.1 := by simp [t, hr]
    rw [key, ha, ht]
    simp [hr, c, saveEvents, deliverEvents]
  · have hr : respondNeeded type c = true := hr
    have ht : t = sc.1.bumpFcntDown := by simp [t, hr]
    rw [key, ha, ht]
    simp [hr, c, saveEvents, deliverEvents]

end Sys2Proof.Machine
end

