-- ==== Sys2Proof/Laws/PerInstr.lean ====
section
/-! SUPPORT. The family OpcodeRow: the words of an instruction begin with the byte that its row of
spec/opcode_table.json matches on. -/

namespace Sys2Proof.Laws.OpcodeRow

/-- The `match` of an instruction's row of spec/opcode_table.json. -/
def matchByte : Instr → Byte
  | .aesEnc _ _ => 0x01
  | .aesDec _ _ => 0x02
  | .cmacTag _ _ => 0x10
  | .micPlain _ _ => 0x11
  | .micData _ _ _ _ _ => 0x12
  | .micCheck _ _ _ _ _ _ => 0x13
  | .ctrApply _ _ _ _ _ => 0x20
  | .kdfDerive _ _ _ _ _ => 0x30
  | .frmDec _ => 0x40
  | .frmEnc _ _ _ => 0x41
  | .macDec _ => 0x42
  | .macEnc _ _ _ _ _ _ _ => 0x43
  | .jreqDec _ => 0x44
  | .jaccEnc _ _ _ _ _ => 0x45
  | .fcntCand _ _ _ => 0x50
  | .fcntClass _ _ => 0x51
  | .rxFrame _ _ _ => 0x60
  | .sessLoad _ _ _ _ _ => 0x70
  | .cfgSet _ => 0x71
  | .typeJoinRequest _ _ _ _ => 0x00
  | .typeJoinAccept _ _ _ _ => 0x20
  | .typeUnconfirmedUp _ _ _ _ => 0x40
  | .typeUnconfirmedDown _ _ _ _ => 0x60
  | .typeConfirmedUp _ _ _ _ => 0x80
  | .typeConfirmedDown _ _ _ _ => 0xA0

/-- The first byte of the words of an instruction. -/
def Statement (i : Instr) : Prop := (encode i).head? = some (matchByte i)

theorem aesEnc (key blk : Block) : Statement (.aesEnc key blk) := rfl
theorem aesDec (key blk : Block) : Statement (.aesDec key blk) := rfl
theorem cmacTag (key : Block) (msg : List Byte) : Statement (.cmacTag key msg) := rfl
theorem micPlain (key : Block) (msg : List Byte) : Statement (.micPlain key msg) := rfl
theorem micData (key : Block) (cnt : U32) (dir : Byte) (addr : Bytes4) (msg : List Byte) :
    Statement (.micData key cnt dir addr msg) := rfl
theorem micCheck (key : Block) (cnt : U32) (dir : Byte) (addr mic : Bytes4) (msg : List Byte) :
    Statement (.micCheck key cnt dir addr mic msg) := rfl
theorem ctrApply (key : Block) (cnt : U32) (dir : Byte) (addr : Bytes4) (data : List Byte) :
    Statement (.ctrApply key cnt dir addr data) := rfl
theorem kdfDerive (flavor : Byte) (root : Block) (joinNonce netId : Bytes3) (devNonce : Bytes2) :
    Statement (.kdfDerive flavor root joinNonce netId devNonce) := rfl
theorem frmDec (raw : List Byte) : Statement (.frmDec raw) := rfl
theorem frmEnc (type : Byte) (payload : List Byte) (tag : Bytes4) : Statement (.frmEnc type payload tag) := rfl
theorem macDec (payload : List Byte) : Statement (.macDec payload) := rfl
theorem macEnc (addr : Bytes4) (flags : Byte) (fcnt16 : U16) (opts : List Byte) (hasPort : Bool) (port : Byte)
    (app : List Byte) : Statement (.macEnc addr flags fcnt16 opts hasPort port app) := rfl
theorem jreqDec (payload : List Byte) : Statement (.jreqDec payload) := rfl
theorem jaccEnc (joinNonce netId : Bytes3) (addr : Bytes4) (settings rxDelay : Byte) :
    Statement (.jaccEnc joinNonce netId addr settings rxDelay) := rfl
theorem fcntCand (wire16 : U16) (stored : U32) (resetAllowed : Bool) :
    Statement (.fcntCand wire16 stored resetAllowed) := rfl
theorem fcntClass (acc stored : U32) : Statement (.fcntClass acc stored) := rfl
theorem rxFrame (raw : List Byte) (rssi : U16) (resetAllowed : Bool) :
    Statement (.rxFrame raw rssi resetAllowed) := rfl
theorem sessLoad (addr : Bytes4) (appSKey nwkSKey : Block) (up down : U32) :
    Statement (.sessLoad addr appSKey nwkSKey up down) := rfl
theorem cfgSet (cfg : Byte) : Statement (.cfgSet cfg) := rfl
theorem typeJoinRequest (payload : List Byte) (tag : Bytes4) (rssi : U16) (resetAllowed : Bool) :
    Statement (.typeJoinRequest payload tag rssi resetAllowed) := rfl
theorem typeJoinAccept (payload : List Byte) (tag : Bytes4) (rssi : U16) (resetAllowed : Bool) :
    Statement (.typeJoinAccept payload tag rssi resetAllowed) := rfl
theorem typeUnconfirmedUp (payload : List Byte) (tag : Bytes4) (rssi : U16) (resetAllowed : Bool) :
    Statement (.typeUnconfirmedUp payload tag rssi resetAllowed) := rfl
theorem typeUnconfirmedDown (payload : List Byte) (tag : Bytes4) (rssi : U16) (resetAllowed : Bool) :
    Statement (.typeUnconfirmedDown payload tag rssi resetAllowed) := rfl
theorem typeConfirmedUp (payload : List Byte) (tag : Bytes4) (rssi : U16) (resetAllowed : Bool) :
    Statement (.typeConfirmedUp payload tag rssi resetAllowed) := rfl
theorem typeConfirmedDown (payload : List Byte) (tag : Bytes4) (rssi : U16) (resetAllowed : Bool) :
    Statement (.typeConfirmedDown payload tag rssi resetAllowed) := rfl

end Sys2Proof.Laws.OpcodeRow
end

