-- ==== Sys2Proof/Laws/Reader.lean ====
section
/-! SUPPORT. One pair of lemmas per operand reader of Decode.lean: it reads back what the encoder lays down, and what
it reads is what stood there. -/

namespace Sys2Proof

@[simp] theorem readU8_cons (b : Byte) (r : List Byte) : readU8 (b :: r) = .ok (b, r) := rfl

@[simp] theorem readB2_toList (v : Bytes2) (r : List Byte) : readB2 (v.toList ++ r) = .ok (v, r) := rfl
@[simp] theorem readB3_toList (v : Bytes3) (r : List Byte) : readB3 (v.toList ++ r) = .ok (v, r) := rfl
@[simp] theorem readB4_toList (v : Bytes4) (r : List Byte) : readB4 (v.toList ++ r) = .ok (v, r) := rfl
@[simp] theorem readK16_toList (b : Block) (r : List Byte) : readK16 (b.toList ++ r) = .ok (b, r) := rfl

@[simp] theorem readU16_le16 (v : U16) (r : List Byte) : readU16 (le16 v ++ r) = .ok (v, r) := by
  simp [le16, readU16]

@[simp] theorem readU32_le32 (v : U32) (r : List Byte) : readU32 (le32 v ++ r) = .ok (v, r) := by
  simp [le32, readU32]

theorem readVar_varBytes {B : List Byte} (h : B.length ≤ 255) (r : List Byte) :
    readVar (varBytes B ++ r) = .ok (B, r) := by
  simp [varBytes, readVar, Nat.mod_eq_of_lt (show B.length < 256 by omega)]

@[simp] theorem readFlag_flagByte (b : Bool) (r : List Byte) : readFlag (flagByte b :: r) = .ok (b, r) := by
  cases b <;> rfl

theorem readU8_ok {bs r : List Byte} {b : Byte} (h : readU8 bs = .ok (b, r)) : bs = b :: r := by
  match bs, h with
  | _ :: _, h => cases h; rfl

theorem readB2_ok {bs r : List Byte} {v : Bytes2} (h : readB2 bs = .ok (v, r)) : bs = v.toList ++ r := by
  match bs, h with
  | _ :: _ :: _, h => cases h; rfl

theorem readB3_ok {bs r : List Byte} {v : Bytes3} (h : readB3 bs = .ok (v, r)) : bs = v.toList ++ r := by
  match bs, h with
  | _ :: _ :: _ :: _, h => cases h; rfl

theorem readB4_ok {bs r : List Byte} {v : Bytes4} (h : readB4 bs = .ok (v, r)) : bs = v.toList ++ r := by
  match bs, h with
  | _ :: _ :: _ :: _ :: _, h => cases h; rfl

/-- A read followed by a read: both succeeded. -/
theorem bind_ok {ε α β : Type} {x : Except ε α} {f : α → Except ε β} {b : β} (h : (x >>= f) = .ok b) :
    ∃ a, x = .ok a ∧ f a = .ok b := by
  cases x with
  | error e => cases h
  | ok a => exact ⟨a, rfl, h⟩

theorem readK16_ok {bs r : List Byte} {v : Block} (h : readK16 bs = .ok (v, r)) : bs = v.toList ++ r := by
  obtain ⟨⟨c0, r0⟩, h0, h⟩ := bind_ok h
  obtain ⟨⟨c1, r1⟩, h1, h⟩ := bind_ok h
  obtain ⟨⟨c2, r2⟩, h2, h⟩ := bind_ok h
  obtain ⟨⟨c3, r3⟩, h3, h⟩ := bind_ok h
  cases h
  rw [readB4_ok h0, readB4_ok h1, readB4_ok h2, readB4_ok h3]
  simp [Block.toList]

theorem readU16_ok {bs r : List Byte} {v : U16} (h : readU16 bs = .ok (v, r)) : bs = le16 v ++ r := by
  match bs, h with
  | _ :: _ :: _, h => cases h; simp

theorem readU32_ok {bs r : List Byte} {v : U32} (h : readU32 bs = .ok (v, r)) : bs = le32 v ++ r := by
  match bs, h with
  | _ :: _ :: _ :: _ :: _, h => cases h; simp

theorem readVar_ok {bs r B : List Byte} (h : readVar bs = .ok (B, r)) : bs = varBytes B ++ r := by
  match bs, h with
  | n :: rest, h =>
    simp only [readVar] at h
    split at h
    · cases h
    · cases h
      have : min n.toNat rest.length = n.toNat := by omega
      simp [varBytes, this]

theorem readFlag_ok {bs r : List Byte} {b : Bool} (h : readFlag bs = .ok (b, r)) : bs = flagByte b :: r := by
  match bs, h with
  | x :: rest, h =>
    simp only [readFlag] at h
    split_ifs at h <;> cases h <;> simp_all

end Sys2Proof
end

