-- ==== Sys2Proof/Laws/Step.lean ====
section
/-! SUPPORT. What a step can be. -/

namespace Sys2Proof.Machine

/-- R267, R274, R300: a step that goes on either runs a command from an idle block, or returns the oldest event. -/
theorem step_next {s t : State} (h : step s = .next t) :
    (∃ bytes moves i, s.host = .issue bytes :: moves ∧ s.events = [] ∧ decode bytes = .ok i ∧
      exec i (s.withHost moves) = .next t) ∨
    (∃ moves, (s.host = .wait :: moves ∨ s.host = [] ∧ moves = []) ∧ t = (s.withHost moves).returnEvent) := by
  unfold step takeStep at h
  split at h <;> rename_i hh
  · unfold issueCommand at h
    split at h
    · cases h
    rename_i hb
    unfold runCommand at h
    split at h
    · rename_i i hi
      exact .inl ⟨_, _, i, hh, by simpa [State.busy] using hb, hi, h⟩
    · cases h
  · cases h; exact .inr ⟨_, .inl hh, rfl⟩
  · cases h; exact .inr ⟨[], .inr ⟨hh, rfl⟩, by cases s; simp_all [State.withHost]⟩

/-- A frame-type term is the reception of its frame. -/
theorem exec_frameInstr (t : FrameType) (payload : List Byte) (tag : Bytes4) (rssi : U16) (ra : Bool) (s : State) :
    exec (frameInstr t payload tag rssi ra) s = runFrame (frmEnc t.toByte payload tag) rssi ra s := by
  cases t <;> rfl

end Sys2Proof.Machine
end

