-- ==== Sys2Proof/Tests/Slice0.lean ====
section
/-! SUPPORT. The model's own tests: an ill-formed term for each check of WellFormed, a word of every constructor, one or
two steps of every instruction, and a witness for the hypotheses of every statement that has them. Expected results are
the vectors of spec/95_test_vectors.md (named by their V and P numbers) or are worked out from the rules by hand. -/

namespace Sys2Proof.Tests

open Machine

set_option Elab.async false


/-! Helpers. -/

/-- `n` bytes written as one hexadecimal number, byte 0 first. -/
def hex (n v : Nat) : List Byte := (List.range n).map fun k => BitVec.ofNat 8 (v / 2 ^ (8 * (n - 1 - k)))

/-- A key or a block written as one number. -/
def blk (v : Nat) : Block := Block.ofBytes (hex 16 v)

/-- An address or a tag written as one number. -/
def b4 (v : Nat) : Bytes4 := Bytes4.ofBytes (hex 4 v)

/-- The root key of the programs of Part C, and the two session keys that their sessions are loaded with. -/
def rootKey : Block := blk 0x2b7e151628aed2a6abf7158809cf4f3c
def nwkKey : Block := blk 0x00112233445566778899aabbccddeeff
def appKey : Block := blk 0x0f0e0d0c0b0a09080706050403020100

/-- A small state: the identity and the address of the programs, no session, everything enabled, one draw supplied. -/
def unjoined : State :=
  { ident := { devEui := ⟨0x11, 0x12, 0x13, 0x14, 0x15, 0x16, 0x17, 0x18⟩
               appEui := ⟨0x01, 0x02, 0x03, 0x04, 0x05, 0x06, 0x07, 0x08⟩, rootKey := rootKey }
    session := { devAddr := b4 0x26011bda, appSKey := zeroBlock, nwkSKey := zeroBlock, fcntUp := 0, fcntDown := 0 }
    sessionValid := false, joinEn := true, deliverEn := true, response := [0xEE], events := []
    draws := [⟨0xa1, 0xb2, 0xc3⟩], drawCount := 0, host := [] }

/-- A joined state with the two counters given (state A of V40 has 5 and 0). -/
def joined (up down : U32) : State :=
  { unjoined with session := ⟨b4 0x26011bda, appKey, nwkKey, up, down⟩, sessionValid := true, draws := [] }

/-- One step of a state whose host issues a command. -/
def issued (s : State) (bytes : List Byte) : Out := step { s with host := [.issue bytes] }

def responseOf : Out → Option (List Byte)
  | .next s => some s.response
  | _ => none

def eventsOf : Out → Option (List Event)
  | .next s => some s.events
  | _ => none

def sessionOf : Out → Option Session
  | .next s => some s.session
  | _ => none

def refusalOf : Out → Option Refusal
  | .refused r => some r
  | _ => none

def isNext : Out → Bool
  | .next _ => true
  | _ => false

theorem next_of_isNext {o : Out} (h : isNext o = true) : ∃ u, o = .next u := by
  cases o with
  | next u => exact ⟨u, rfl⟩
  | fault e => cases h
  | refused r => cases h

/-! The smoke test of WellFormed: for each check a term that it refuses. -/

theorem test_illFormed_badDir : Instr.issue (.micData zeroBlock 0 2 (b4 0) []) = some .badDir := by decide +kernel
theorem test_illFormed_badDir_check : Instr.issue (.micCheck zeroBlock 0 0xFF (b4 0) (b4 0) []) = some .badDir := by decide +kernel
theorem test_illFormed_badDir_ctr : Instr.issue (.ctrApply zeroBlock 0 2 (b4 0) []) = some .badDir := by decide +kernel
theorem test_illFormed_badFlavor : Instr.issue (.kdfDerive 0 zeroBlock ⟨0, 0, 0⟩ ⟨0, 0, 0⟩ ⟨0, 0⟩) = some .badFlavor := by decide +kernel
theorem test_illFormed_badFlags : Instr.issue (.macEnc (b4 0) 0x01 0 [] false 0 []) = some .badFlags := by decide +kernel
theorem test_illFormed_portlessApp : Instr.issue (.macEnc (b4 0) 0 0 [] false 0 [1]) = some .portlessApp := by decide +kernel
theorem test_illFormed_portlessPort : Instr.issue (.macEnc (b4 0) 0 0 [] false 1 []) = some .portlessApp := by decide +kernel
theorem test_illFormed_badCfg : Instr.issue (.cfgSet 0x04) = some .badCfg := by decide +kernel
theorem test_illFormed_varTooLong : Instr.issue (.cmacTag zeroBlock (zeros 256)) = some .varTooLong := by decide +kernel
theorem test_illFormed_varTooLong_plain : Instr.issue (.micPlain zeroBlock (zeros 256)) = some .varTooLong := by decide +kernel
theorem test_illFormed_varTooLong_ctr : Instr.issue (.ctrApply zeroBlock 0 1 (b4 0) (zeros 256)) = some .varTooLong := by decide +kernel
theorem test_illFormed_varTooLong_raw : Instr.issue (.frmDec (zeros 256)) = some .varTooLong := by decide +kernel
theorem test_illFormed_varTooLong_rx : Instr.issue (.rxFrame (zeros 256) 0 false) = some .varTooLong := by decide +kernel
theorem test_illFormed_msgTooLong : Instr.issue (.micData zeroBlock 0 0 (b4 0) (zeros 240)) = some .msgTooLong := by decide +kernel
theorem test_illFormed_payloadTooLong : Instr.issue (.macDec (zeros 60)) = some .payloadTooLong := by decide +kernel
theorem test_illFormed_payloadTooLong_jreq : Instr.issue (.jreqDec (zeros 60)) = some .payloadTooLong := by decide +kernel
theorem test_illFormed_payloadTooLong_frm : Instr.issue (.frmEnc 0x40 (zeros 60) (b4 0)) = some .payloadTooLong := by decide +kernel
theorem test_illFormed_payloadTooShort : Instr.issue (.frmEnc 0x40 (zeros 6) (b4 0)) = some .payloadTooShort := by decide +kernel
theorem test_illFormed_optsTooLong : Instr.issue (.macEnc (b4 0) 0 0 (zeros 16) false 0 []) = some .optsTooLong := by decide +kernel
theorem test_illFormed_encodedTooLong : Instr.issue (.macEnc (b4 0) 0 0 [] true 1 (zeros 52)) = some .encodedTooLong := by decide +kernel
theorem test_illFormed_frameLength : Instr.issue (.typeUnconfirmedUp (zeros 6) (b4 0) 0 false) = some .frameLength := by decide +kernel
theorem test_illFormed_frameLength_long : Instr.issue (.typeJoinAccept (zeros 60) (b4 0) 0 false) = some .frameLength := by decide +kernel
theorem test_illFormed_rssiTooHigh : Instr.issue (.rxFrame [] 136 false) = some .rssiTooHigh := by decide +kernel
theorem test_illFormed_rssiTooHigh_type : Instr.issue (.typeConfirmedUp (zeros 7) (b4 0) 136 false) = some .rssiTooHigh := by decide +kernel

theorem test_wellFormed_longest : Instr.wellFormed (.macEnc (b4 0) 0xF0 0 (zeros 15) true 1 (zeros 36)) = true := by
  decide +kernel
theorem test_wellFormed_rssi : Instr.wellFormed (.rxFrame [] 135 false) = true := by decide +kernel
theorem test_wellFormed_frame : Instr.wellFormed (.typeConfirmedDown (zeros 59) (b4 0) 0x8000 true) = true := by
  decide +kernel

/-! Decoding: a word of every constructor, from R62 to R64 (R70, R71 for frames). -/

theorem test_decode_aesEnc :
    decode (hex 33 0x01000102030405060708090a0b0c0d0e0f00112233445566778899aabbccddeeff) = .ok (.aesEnc (blk 0x000102030405060708090a0b0c0d0e0f) (blk 0x00112233445566778899aabbccddeeff)) := by decide +kernel
theorem test_decode_aesDec :
    decode (hex 33 0x02000102030405060708090a0b0c0d0e0f00112233445566778899aabbccddeeff) = .ok (.aesDec (blk 0x000102030405060708090a0b0c0d0e0f) (blk 0x00112233445566778899aabbccddeeff)) := by decide +kernel
theorem test_decode_cmacTag :
    decode (hex 21 0x10000102030405060708090a0b0c0d0e0f03aabbcc) = .ok (.cmacTag (blk 0x000102030405060708090a0b0c0d0e0f) [0xaa, 0xbb, 0xcc]) := by decide +kernel
theorem test_decode_micPlain :
    decode (hex 18 0x11000102030405060708090a0b0c0d0e0f00) = .ok (.micPlain (blk 0x000102030405060708090a0b0c0d0e0f) []) := by decide +kernel
theorem test_decode_micData :
    decode (hex 36 0x1200112233445566778899aabbccddeeff010000000026011bda0940da1b012600010001) = .ok (.micData (blk 0x00112233445566778899aabbccddeeff) 1 0 (b4 0x26011bda) (hex 9 0x40da1b012600010001)) := by decide +kernel
theorem test_decode_micCheck :
    decode (hex 32 0x1300112233445566778899aabbccddeeff040302010126011bda7ba792470140) = .ok (.micCheck (blk 0x00112233445566778899aabbccddeeff) 0x01020304 1 (b4 0x26011bda) (b4 0x7ba79247) [0x40]) := by decide +kernel
theorem test_decode_ctrApply :
    decode (hex 32 0x20000102030405060708090a0b0c0d0e0f010000000026011bda0568656c6c6f) = .ok (.ctrApply (blk 0x000102030405060708090a0b0c0d0e0f) 1 0 (b4 0x26011bda) (hex 5 0x68656c6c6f)) := by decide +kernel
theorem test_decode_kdfDerive :
    decode (hex 26 0x3001000102030405060708090a0b0c0d0e0fa1b2c30102031234) = .ok (.kdfDerive 1 (blk 0x000102030405060708090a0b0c0d0e0f) ⟨0xa1, 0xb2, 0xc3⟩ ⟨1, 2, 3⟩ ⟨0x12, 0x34⟩) := by decide +kernel
theorem test_decode_frmDec :
    decode (hex 14 0x400c40da1b0126000100d82769f9) = .ok (.frmDec (hex 12 0x40da1b0126000100d82769f9)) := by decide +kernel
theorem test_decode_frmEnc :
    decode (hex 14 0x414007da1b0126000100d82769f9) = .ok (.frmEnc 0x40 (hex 7 0xda1b0126000100) (b4 0xd82769f9)) := by decide +kernel
theorem test_decode_macDec :
    decode (hex 11 0x4209da1b01260001000002) = .ok (.macDec (hex 9 0xda1b01260001000002)) := by decide +kernel
theorem test_decode_macEnc :
    decode (hex 15 0x4326011bda2034120102010702abcd) = .ok (.macEnc (b4 0x26011bda) 0x20 0x1234 [0x02] true 7 [0xab, 0xcd]) := by decide +kernel
theorem test_decode_jreqDec :
    decode (hex 20 0x4412080706050403020118171615141312113412) = .ok (.jreqDec (hex 18 0x080706050403020118171615141312113412)) := by decide +kernel
theorem test_decode_jaccEnc :
    decode (hex 13 0x45a1b2c301020326011bdaabcd) = .ok (.jaccEnc ⟨0xa1, 0xb2, 0xc3⟩ ⟨1, 2, 3⟩ (b4 0x26011bda) 0xab 0xcd) := by decide +kernel
theorem test_decode_fcntCand :
    decode (hex 8 0x500200feff010001) = .ok (.fcntCand 2 0x0001fffe true) := by decide +kernel
theorem test_decode_fcntClass :
    decode (hex 9 0x510500000006000100) = .ok (.fcntClass 5 0x00010006) := by decide +kernel
theorem test_decode_rxFrame :
    decode (hex 7 0x6002aabbc4ff01) = .ok (.rxFrame [0xaa, 0xbb] (BitVec.ofInt 16 (-60)) true) := by decide +kernel
theorem test_decode_sessLoad :
    decode (hex 45 0x7026011bda000102030405060708090a0b0c0d0e0f00112233445566778899aabbccddeefffeff010007000000) = .ok (.sessLoad (b4 0x26011bda) (blk 0x000102030405060708090a0b0c0d0e0f) (blk 0x00112233445566778899aabbccddeeff) 0x0001fffe 7) := by decide +kernel
theorem test_decode_cfgSet :
    decode (hex 2 0x7103) = .ok (.cfgSet 3) := by decide +kernel

theorem test_decode_typeJoinRequest : decodeFrame (hex 12 0x00da1b0126000100d82769f9) 7 true =
    .ok (.typeJoinRequest (hex 7 0xda1b0126000100) (b4 0xd82769f9) 7 true) := by decide +kernel
theorem test_decode_typeJoinAccept : decodeFrame (hex 12 0x20da1b0126000100d82769f9) 7 true =
    .ok (.typeJoinAccept (hex 7 0xda1b0126000100) (b4 0xd82769f9) 7 true) := by decide +kernel
theorem test_decode_typeUnconfirmedUp : decodeFrame (hex 12 0x40da1b0126000100d82769f9) 7 true =
    .ok (.typeUnconfirmedUp (hex 7 0xda1b0126000100) (b4 0xd82769f9) 7 true) := by decide +kernel
theorem test_decode_typeUnconfirmedDown : decodeFrame (hex 12 0x60da1b0126000100d82769f9) 7 true =
    .ok (.typeUnconfirmedDown (hex 7 0xda1b0126000100) (b4 0xd82769f9) 7 true) := by decide +kernel
theorem test_decode_typeConfirmedUp : decodeFrame (hex 12 0x80da1b0126000100d82769f9) 7 true =
    .ok (.typeConfirmedUp (hex 7 0xda1b0126000100) (b4 0xd82769f9) 7 true) := by decide +kernel
theorem test_decode_typeConfirmedDown : decodeFrame (hex 12 0xa0da1b0126000100d82769f9) 7 true =
    .ok (.typeConfirmedDown (hex 7 0xda1b0126000100) (b4 0xd82769f9) 7 true) := by decide +kernel

theorem test_decode_unknown : decode [0x03] = .error (.unknownOpcode 0x03) := by decide +kernel
theorem test_decode_short : decode [0x40, 0x02, 0xaa] = .error .tooShort := by decide +kernel
theorem test_decode_long : decode [0x71, 0x00, 0x00] = .error .tooLong := by decide +kernel
theorem test_decode_flag : decode [0x60, 0x00, 0x00, 0x00, 0x02] = .error (.badFlag 0x02) := by decide +kernel

/-- The rows of the opcode table: an opcode, and a type byte that is no opcode. -/
theorem test_table_cfgSet : decodeTableWord 8 0x71 = some (.cfgSet 0) := by decide +kernel
theorem test_table_confirmedUp : decodeTableWord 8 0x80 = some (.typeConfirmedUp (zeros 7) (b4 0) 0 false) := by
  decide +kernel
theorem test_table_step : isNext (step (State.withFetchWord unjoined 8 0xA0)) = true := by decide +kernel

/-! Steps of the sixteen computational commands: the response to a command of Part B. -/

theorem test_step_aesEnc_V1 :
    responseOf (issued unjoined (hex 33 0x01000102030405060708090a0b0c0d0e0f00112233445566778899aabbccddeeff)) = some (hex 17 0x0069c4e0d86a7b0430d8cdb78070b4c55a) := by decide +kernel
theorem test_step_aesDec_V1 :
    responseOf (issued unjoined (hex 33 0x02000102030405060708090a0b0c0d0e0f69c4e0d86a7b0430d8cdb78070b4c55a)) = some (hex 17 0x0000112233445566778899aabbccddeeff) := by decide +kernel
theorem test_step_cmacTag_V10_empty :
    responseOf (issued unjoined (hex 18 0x102b7e151628aed2a6abf7158809cf4f3c00)) = some (hex 17 0x00bb1d6929e95937287fa37d129b756746) := by decide +kernel
theorem test_step_cmacTag_V10_40 :
    responseOf (issued unjoined (hex 58 0x102b7e151628aed2a6abf7158809cf4f3c286bc1bee22e409f96e93d7e117393172aae2d8a571e03ac9c9eb76fac45af8e5130c81c46a35ce411)) = some (hex 17 0x00dfa66747de9ae63030ca32611497c827) := by decide +kernel
theorem test_step_micPlain_V14 :
    responseOf (issued unjoined (hex 34 0x112b7e151628aed2a6abf7158809cf4f3c106bc1bee22e409f96e93d7e117393172a)) = some (hex 5 0x00070a16b4) := by decide +kernel
theorem test_step_micData_V14 :
    responseOf (issued unjoined (hex 36 0x1200112233445566778899aabbccddeeff010000000126011bda0940da1b012600010001)) = some (hex 5 0x0070e1e5a4) := by decide +kernel
theorem test_step_micCheck_V15 :
    responseOf (issued unjoined (hex 40 0x1300112233445566778899aabbccddeeff010000000026011bda7ba792470940da1b012600010001)) = some (hex 1 0x00) := by decide +kernel
theorem test_step_micCheck_V15_lastByte :
    responseOf (issued unjoined (hex 40 0x1300112233445566778899aabbccddeeff010000000026011bda7ba792c70940da1b012600010001)) = some (hex 1 0x01) := by decide +kernel
theorem test_step_ctrApply_V20_17 :
    responseOf (issued unjoined (hex 44 0x200f0e0d0c0b0a09080706050403020100010000000026011bda110000000000000000000000000000000000)) = some (hex 19 0x0011ee25242f0b7b39ddae48a6afd1bd7b00f6) := by decide +kernel
theorem test_step_ctrApply_V20_down :
    responseOf (issued unjoined (hex 32 0x200f0e0d0c0b0a09080706050403020100010000000126011bda0568656c6c6f)) = some (hex 7 0x0005c4e4bab471) := by decide +kernel
theorem test_step_kdfDerive_V25_network :
    responseOf (issued unjoined (hex 26 0x30012b7e151628aed2a6abf7158809cf4f3ca1b2c30000001234)) = some (hex 17 0x0029aecd04b912672515e19074ba031510) := by decide +kernel
theorem test_step_kdfDerive_V25_order :
    responseOf (issued unjoined (hex 26 0x30012b7e151628aed2a6abf7158809cf4f3c0102030405060708)) = some (hex 17 0x00a4b1c9345f067f183c06b789e2fc348d) := by decide +kernel
theorem test_step_frmDec_V30 :
    responseOf (issued unjoined (hex 14 0x400c40da1b0126000100d82769f9)) = some (hex 14 0x004007da1b0126000100d82769f9) := by decide +kernel
theorem test_step_frmDec_V30_type :
    responseOf (issued unjoined (hex 14 0x400c41da1b0126000100d82769f9)) = some (hex 1 0x01) := by decide +kernel
theorem test_step_frmEnc_V30 :
    responseOf (issued unjoined (hex 14 0x414007da1b0126000100d82769f9)) = some (hex 14 0x000c40da1b0126000100d82769f9) := by decide +kernel
theorem test_step_macDec_V31 :
    responseOf (issued unjoined (hex 11 0x4209da1b01260001000002)) = some (hex 13 0x0026011bda0001000001000102) := by decide +kernel
theorem test_step_macDec_V32 :
    responseOf (issued unjoined (hex 23 0x4215da1b01260f01000000000000000000000000000000)) = some (hex 1 0x01) := by decide +kernel
theorem test_step_macEnc_V31 :
    responseOf (issued unjoined (hex 13 0x4326011bda2034120102000000)) = some (hex 10 0x0008da1b012621341202) := by decide +kernel
theorem test_step_jreqDec_V33 :
    responseOf (issued unjoined (hex 20 0x4412080706050403020118171615141312113412)) = some (hex 19 0x00010203040506070811121314151617181234) := by decide +kernel
theorem test_step_jreqDec_V33_short :
    responseOf (issued unjoined (hex 19 0x44110807060504030201181716151413121134)) = some (hex 1 0x01) := by decide +kernel
theorem test_step_jaccEnc_V34 :
    responseOf (issued unjoined (hex 13 0x450102030405060708090aabcd)) = some (hex 30 0x001c0302010605040a090807abcd00000000000000000000000000000000) := by decide +kernel
theorem test_step_fcntCand_wrap :
    responseOf (issued unjoined (hex 8 0x500200feffffff01)) = some (hex 14 0x00030200ffff0200000000000000) := by decide +kernel
theorem test_step_fcntClass_equal :
    responseOf (issued unjoined (hex 9 0x510500000005000000)) = some (hex 2 0x0001) := by decide +kernel
theorem test_step_fcntClass_zero :
    responseOf (issued unjoined (hex 9 0x510000000000000000)) = some (hex 2 0x0002) := by decide +kernel

/-- R171: the type byte is not checked by the encoder. -/
theorem test_step_frmEnc_anyType : responseOf (exec (.frmEnc 0xE0 (zeros 7) (b4 0)) unjoined) =
    some ([0x00, 12, 0xE0] ++ zeros 11) := by decide +kernel

/-! Steps of the engine. -/

theorem test_step_sessLoad_P4 :
    sessionOf (issued unjoined (hex 45 0x7026011bda0f0e0d0c0b0a0908070605040302010000112233445566778899aabbccddeefffeff010007000000)) =
    some ⟨b4 0x26011bda, appKey, nwkKey, 0x0001fffe, 7⟩ := by decide +kernel
theorem test_step_cfgSet : (match issued unjoined [0x71, 0x02] with | .next s => (s.joinEn, s.deliverEn) | _ => (true, false)) =
    (false, true) := by decide +kernel
theorem test_step_badDir : refusalOf (exec (.micData zeroBlock 0 2 (b4 0) []) unjoined) = some (.illFormed .badDir) := by
  decide +kernel
theorem test_step_busy : refusalOf (issued { unjoined with events := [.joined] } [0x71, 0x02]) = some .busy := by
  decide +kernel
theorem test_step_return : eventsOf (step { unjoined with events := [.save unjoined.session, .joined] }) =
    some [.joined] := by decide +kernel

/-- P1: the join. -/
theorem test_step_join_P1 :
    eventsOf (issued unjoined (hex 28 0x6017000807060504030201181716151413121134121d41204cc4ff00)) =
    some [.emit (hex 33 0x205787d7aac3a77f30e01c8c5f99948ae2caddff257c6c91db8bf775e02fe409a0) 33 5000,
      .save ⟨b4 0x26011bda, blk 0x0b4ad4d7934808944708387d244d205c, blk 0x29aecd04b912672515e19074ba031510, 0, 0⟩,
      .joined] := by decide +kernel

/-- P1 as the frame-type instruction. -/
theorem test_step_typeJoinRequest : sessionOf (exec (.typeJoinRequest (hex 18 0x080706050403020118171615141312113412)
    (b4 0x1d41204c) 0 false) unjoined) =
    some ⟨b4 0x26011bda, blk 0x0b4ad4d7934808944708387d244d205c, blk 0x29aecd04b912672515e19074ba031510, 0, 0⟩ := by
  decide +kernel

/-- V40 row 7: one bit of the tag flipped. -/
theorem test_step_join_badTag : eventsOf (exec (.typeJoinRequest (hex 18 0x080706050403020118171615141312113412)
    (b4 0x1c41204c) 0 false) unjoined) = some [] := by decide +kernel

theorem test_step_typeJoinAccept : eventsOf (exec (.typeJoinAccept (zeros 28) (b4 0) 0 false) unjoined) = some [] := by
  decide +kernel

/-- V44 row 1, an unconfirmed uplink. -/
theorem test_step_typeUnconfirmedUp_V44 :
    eventsOf (exec (.typeUnconfirmedUp (hex 13 0xda1b012600060001ab8047780b) (b4 0x23cc4459) (-60) false) (joined 5 0)) =
    some [.save ⟨b4 0x26011bda, appKey, nwkKey, 6, 0⟩, .deliver 1 (hex 5 0x68656c6c6f) 5] := by decide +kernel

/-- P5: the counter-0 frame with the reset flag. -/
theorem test_step_typeUnconfirmedUp_P5 :
    eventsOf (exec (.typeUnconfirmedUp (hex 9 0xda1b012600000001f0) (b4 0xedad38fb) (-60) true) (joined 5 0)) =
    some [.save ⟨b4 0x26011bda, appKey, nwkKey, 0, 0⟩, .deliver 1 [0x01] 1] := by decide +kernel

/-- V43: the two down types. -/
theorem test_step_typeUnconfirmedDown_V43 :
    eventsOf (exec (.typeUnconfirmedDown (hex 10 0xda1b012600060003941a) (b4 0xe9103b88) (-60) false) (joined 5 0)) =
    some [.save ⟨b4 0x26011bda, appKey, nwkKey, 6, 0⟩, .deliver 3 [0xaa, 0xbb] 2] := by decide +kernel
theorem test_step_typeConfirmedDown_V43 :
    eventsOf (exec (.typeConfirmedDown (hex 10 0xda1b012600070003351f) (b4 0xe96a2608) (-60) false) (joined 6 0)) =
    some [.save ⟨b4 0x26011bda, appKey, nwkKey, 7, 0⟩, .deliver 3 [0xaa, 0xbb] 2] := by decide +kernel

/-- P6: a confirmed uplink with a link check, the largest margin. -/
theorem test_step_typeConfirmedUp_P6 :
    eventsOf (exec (.typeConfirmedUp (hex 11 0xda1b012601130002055256) (b4 0x07b6b4f1) 135 false) (joined 0x12 0x22)) =
    some [.emit (hex 15 0x60da1b012623230002ff01a2534e1e) 15 1000, .save ⟨b4 0x26011bda, appKey, nwkKey, 0x13, 0x23⟩,
      .deliver 5 [0xca, 0xfe] 2] := by decide +kernel

/-- P6: a link check by the port-0 payload. -/
theorem test_step_rxFrame_P6 :
    eventsOf (issued (joined 0x11 0x21) (hex 19 0x600e40da1b01260012000026f7c481a47eff00)) =
    some [.emit (hex 15 0x60da1b012603220002000144a58e88) 15 1000,
      .save ⟨b4 0x26011bda, appKey, nwkKey, 0x12, 0x22⟩] := by decide +kernel

/-! Witnesses: for every statement with hypotheses, values that meet them, each clause at the ends of its range. -/

theorem witness_KeyExpansion : (0 : Nat) ≤ 10 ∧ (10 : Nat) ≤ 10 ∧ (4 : Nat) ≤ 4 ∧ (43 : Nat) ≤ 43 ∧ 4 % 4 = 0 ∧ 43 % 4 ≠ 0 := by
  decide
theorem witness_RoundSteps : ∃ r c k : Nat, r < 4 ∧ c < 4 ∧ r = 3 ∧ c = 3 ∧ k < 16 ∧ k = 15 := ⟨3, 3, 15, by decide⟩
theorem witness_CmacChains : (zeros 16).length = 16 ∧ (zeros 15).length < 16 ∧ ([] : List Byte).length < 16 ∧
    [(1 : Byte)] ≠ [] := by decide +kernel
theorem witness_PlainTag : (zeros 255).length ≤ 255 ∧ 255 < (zeros 256).length := by decide +kernel
theorem witness_DataTag : ((0 : Byte) = 0 ∨ (0 : Byte) = 1) ∧ ((1 : Byte) = 0 ∨ (1 : Byte) = 1) ∧
    (zeros 239).length ≤ 239 ∧ (zeros 0).length ≤ 239 := by decide +kernel
theorem witness_TagRefusals : (2 : Byte) ≠ 0 ∧ (2 : Byte) ≠ 1 ∧ (0xFF : Byte) ≠ 0 ∧ (0xFF : Byte) ≠ 1 ∧
    239 < (zeros 240).length ∧ 255 < (zeros 256).length := by decide +kernel
theorem witness_Keystream : (zeros 17).length ≤ 4080 ∧ [(0x68 : Byte)][0]? = some 0x68 ∧ (zeros 17)[16]? = some 0 := by decide +kernel
theorem witness_CtrApply : ((1 : Byte) = 0 ∨ (1 : Byte) = 1) ∧ (zeros 255).length ≤ 255 := by decide +kernel
theorem witness_KeyDerivation : (0 : Byte) ≠ 0x01 ∧ (0 : Byte) ≠ 0x02 ∧ (3 : Byte) ≠ 0x01 ∧ (3 : Byte) ≠ 0x02 := by decide

/-- V31 (a) and a record of 59 bytes with 15 options, all flags, a port and an application payload. -/
def shortRecord : MacPayload := ⟨b4 0x26011bda, false, false, false, false, 1, [], none, []⟩
def longRecord : MacPayload := ⟨b4 0x26011bda, true, true, true, true, 0xffff, zeros 15, some 7, zeros 36⟩

theorem witness_MacRecord : (shortRecord.port = none → shortRecord.app = []) ∧ shortRecord.opts.length ≤ 15 ∧
    (macEnc shortRecord).length ≤ 59 ∧ (longRecord.port = none → longRecord.app = []) ∧ longRecord.opts.length ≤ 15 ∧
    (macEnc longRecord).length ≤ 59 ∧ (macEnc longRecord).length = 59 := by decide +kernel
theorem witness_MacPayloadIsWrittenBack : macDec (hex 7 0xda1b0126000100) = .ok shortRecord := by decide +kernel
theorem witness_OuterFrame : 7 ≤ (zeros 7).length ∧ (zeros 59).length ≤ 59 ∧
    frmDec (0x80 :: zeros 63) = .ok ⟨.confirmedUp, zeros 59, b4 0⟩ := by decide +kernel
theorem witness_FrameDecode : (0xA0 : Byte) ∈ [(0x00 : Byte), 0x20, 0x40, 0x60, 0x80, 0xA0] ∧ 7 ≤ (zeros 7).length ∧
    (zeros 59).length ≤ 59 ∧ (zeros 11).length < 12 ∧ 64 < (zeros 65).length ∧ (zeros 255).length ≤ 255 ∧
    (∀ b ∈ ((0x41 : Byte) :: zeros 11).head?, b ∉ [(0x00 : Byte), 0x20, 0x40, 0x60, 0x80, 0xA0]) := by decide +kernel
theorem witness_FrameEncode : 7 ≤ (zeros 7).length ∧ (zeros 59).length ≤ 59 ∧ (zeros 6).length < 7 ∧
    59 < (zeros 60).length := by decide +kernel
theorem witness_MacCommands : (0xF0 : Byte) &&& 0x0F = 0 ∧ (zeros 15).length ≤ 15 ∧
    7 + (zeros 15).length + (if true then 1 + (zeros 36).length else 0) ≤ 59 ∧
    (false = false → (0 : Byte) = 0 ∧ ([] : List Byte) = []) ∧
    7 + (zeros 15).length + (if false then 1 + ([] : List Byte).length else 0) ≤ 59 := by decide +kernel
/-- The four refusals of MAC.ENC, each at the boundary and with the conditions before it met. -/
theorem witness_MacCommands_refusals : (0x01 : Byte) &&& 0x0F ≠ 0 ∧
    ((0xF0 : Byte) &&& 0x0F = 0 ∧ 15 < (zeros 16).length) ∧
    ((zeros 15).length ≤ 15 ∧ (1 : Byte) ≠ 0 ∧ zeros 1 ≠ []) ∧
    59 < 7 + (zeros 15).length + (if true then 1 + (zeros 37).length else 0) := by decide +kernel
theorem witness_MacDecode : (zeros 0).length ≤ 59 ∧ (zeros 59).length ≤ 59 ∧ 59 < (zeros 60).length := by decide +kernel
theorem witness_JoinRequest : (zeros 17).length ≤ 59 ∧ (zeros 17).length ≠ 18 ∧ (zeros 59).length ≠ 18 ∧
    59 < (zeros 60).length := by
  decide +kernel
theorem witness_FirstMatch : accept [0, 0x00010000] nwkKey .up (b4 0x26011bda) (hex 10 0x40da1b012600000001f0)
    (b4 0xedad38fb) = some 0 := by decide +kernel
theorem witness_FreshnessClass : (4 : U32).toNat < (5 : U32).toNat ∧ (5 : U32) = 5 ∧ (5 : U32).toNat ≠ 0 ∧
    (0xFFFFFFFE : U32).toNat < (0xFFFFFFFF : U32).toNat ∧ ((0 : U32) = 0 ∧ (0 : U32) = 0) := by decide

/-- P4: the tag of the frame is that of the next high word and not that of the stored one. -/
theorem witness_CounterRollover :
    b4 0x166fd59d = micData nwkKey (BitVec.ofNat 32 ((1 + 1) * 65536 + 2)) .up (b4 0x26011bda) (hex 11 0x40da1b012600020002098c) ∧
    b4 0x166fd59d ≠ micData nwkKey (BitVec.ofNat 32 (1 * 65536 + 2)) .up (b4 0x26011bda) (hex 11 0x40da1b012600020002098c) ∧
    (1 : Nat) < 65535 ∧ (0xfffe : Nat) < 65536 ∧ (2 : Nat) < 0xfffe := by decide +kernel
theorem witness_ConfigSet : (3 : Byte).toNat < 4 ∧ 4 ≤ (4 : Byte).toNat ∧ 4 ≤ (0xFF : Byte).toNat := by decide
theorem witness_Reception : decodeFrame (zeros 12) 0 false = .ok (.typeJoinRequest (zeros 7) (b4 0) 0 false) := by
  decide +kernel
theorem witness_StrongSignal : 135 < (136 : U16).toInt ∧ 135 < (0x7FFF : U16).toInt ∧ (zeros 255).length ≤ 255 := by
  decide +kernel
theorem witness_JoinAcceptDropped : (135 : U16).toInt ≤ 135 ∧ (0x8000 : U16).toInt ≤ 135 := by decide

/-- A payload of 18 bytes whose application id, and one whose device id, is not the paired one. -/
theorem witness_JoinBranchDrops : (135 : U16).toInt ≤ 135 ∧ (zeros 11).length < 12 ∧ 64 < (zeros 65).length ∧
    (zeros 255).length ≤ 255 ∧ (∀ b ∈ ((0x01 : Byte) :: zeros 11).head?, b ∉ [(0x00 : Byte), 0x20, 0x40, 0x60, 0x80, 0xA0]) ∧
    ((unjoined.withEnables false true).joinEn = false) ∧ (zeros 17).length ≠ 18 ∧
    (hex 18 0x090706050403020118171615141312113412).take 8 ≠ unjoined.ident.appEui.toList.reverse ∧
    ((hex 18 0x080706050403020119171615141312113412).drop 8).take 8 ≠ unjoined.ident.devEui.toList.reverse ∧
    (b4 0x1c41204c).toList ≠ (cmac unjoined.ident.rootKey (0x00 :: (hex 18 0x080706050403020118171615141312113412))).toList.take 4 := by
  decide +kernel

/-- V40 and P5: no session; options that do not fit; another address; a flipped tag bit; a counter below the stored. -/
theorem witness_DataBranchDrops : FrameType.unconfirmedUp.isData = true ∧ (135 : U16).toInt ≤ 135 ∧
    unjoined.sessionValid = false ∧
    (hex 7 0xda1b0126010600).length < 7 + ((hex 7 0xda1b0126010600).getD 4 0).toNat % 16 ∧
    (hex 7 0xdb1b0126000600).take 4 ≠ (joined 5 0).session.devAddr.toList.reverse ∧
    accept (fcntCand (u16le ((hex 9 0xda1b012600000001f0).getD 5 0) ((hex 9 0xda1b012600000001f0).getD 6 0)) 5 false) nwkKey .up
      (b4 0x26011bda) (hex 10 0x40da1b012600000001f0) (b4 0xedad38fb) = some 0 ∧
    ¬ ((0 : U32) = 0 ∧ false = true) ∧ (0 : U32).toNat < (5 : U32).toNat := by decide +kernel
theorem witness_DataBranchDrops_noMatch :
    ∀ c ∈ fcntCand 0 5 false, ¬ micData nwkKey c .up (b4 0x26011bda) (hex 10 0x40da1b012600000001f0) = b4 0xecad38fb := by
  intro c hc
  have h : fcntCand 0 5 false = [0, 0x00010000] := by decide
  rw [h, List.mem_cons, List.mem_singleton] at hc
  rcases hc with rfl | rfl
  · decide +kernel
  · decide +kernel
theorem witness_ForcedReset : resetForced 0 true = true := by decide
theorem witness_JoinSucceeds : (135 : U16).toInt ≤ 135 ∧ unjoined.joinEn = true := by decide

/-- The frame of P5 (counter 0, port 1, no options) and its record. -/
def frame0 : List Byte := (hex 9 0xda1b012600000001f0)
def record0 : MacPayload := ⟨b4 0x26011bda, false, false, false, false, 0, [], some 1, [0xf0]⟩

theorem witness_DataBranch_common : FrameType.unconfirmedUp.isData = true ∧ (135 : U16).toInt ≤ 135 ∧
    frame0.length ≤ 59 ∧ (joined 5 0).sessionValid = true ∧ macDec frame0 = .ok record0 ∧
    record0.addr = (joined 5 0).session.devAddr := by decide +kernel

/-- The stale clause, and, with the reset flag, the clause `acc = 0 = stored` of a forced counter. -/
theorem witness_DataBranch_stale_and_forced : ∀ resetAllowed : Bool,
    accept (fcntCand record0.fcnt16 (joined 5 0).session.fcntUp resetAllowed) (joined 5 0).session.nwkSKey
      FrameType.unconfirmedUp.dir (joined 5 0).session.devAddr (FrameType.unconfirmedUp.toByte :: frame0)
      (b4 0xedad38fb) = some 0 ∧ (0 : U32).toNat < (5 : U32).toNat ∧ ((0 : U32) = 0 ∧ (0 : U32) = 0) := by
  decide +kernel

/-- The frame of V44 row 3 (counter 6): a replay when 6 is stored, fresh when 5 is stored. -/
theorem witness_DataBranch_replay : macDec (hex 8 0xda1b012600060001) = .ok ⟨b4 0x26011bda, false, false, false, false, 6, [], some 1, []⟩ ∧
    accept (fcntCand 6 (joined 6 0).session.fcntUp false) (joined 6 0).session.nwkSKey FrameType.unconfirmedUp.dir
      (joined 6 0).session.devAddr (FrameType.unconfirmedUp.toByte :: (hex 8 0xda1b012600060001)) (b4 0x5f91d8da) = some 6 ∧
    (joined 6 0).session.fcntUp = 6 ∧ (6 : U32) ≠ 0 := by decide +kernel
theorem witness_DataBranch_fresh : macDec (hex 8 0xda1b012600060001) = .ok ⟨b4 0x26011bda, false, false, false, false, 6, [], some 1, []⟩ ∧
    accept (fcntCand 6 (joined 5 0).session.fcntUp false) (joined 5 0).session.nwkSKey FrameType.unconfirmedUp.dir
      (joined 5 0).session.devAddr (FrameType.unconfirmedUp.toByte :: (hex 8 0xda1b012600060001)) (b4 0x5f91d8da) = some 6 ∧
    (joined 5 0).session.fcntUp.toNat < (6 : U32).toNat := by decide +kernel
theorem witness_ResponseFrame : (135 : U16).toInt ≤ 135 ∧ (0x8000 : U16).toInt ≤ 135 := by decide
theorem witness_HonestFrame : FrameType.confirmedUp.isData = true ∧ (0 : U16).toInt ≤ 135 ∧
    (joined 5 0).sessionValid = true ∧ (joined 5 0).deliverEn = true ∧ longRecord.addr = (joined 5 0).session.devAddr ∧
    longRecord.port = some 7 ∧ (7 : Byte) ≠ 0 ∧ longRecord.opts.length ≤ 15 ∧
    longRecord.opts.length + longRecord.app.length ≤ 51 ∧
    (6 : U32).toNat / 65536 = (joined 5 0).session.fcntUp.toNat / 65536 ∧
    (joined 5 0).session.fcntUp.toNat < (6 : U32).toNat := by decide +kernel

/-- A link check by the first option byte, in a frame that asks for no confirmation. -/
def checkRecord : MacPayload := ⟨b4 0x26011bda, false, false, false, false, 0, [0x02], some 7, zeros 50⟩
theorem witness_HonestFrame_linkCheck : FrameType.unconfirmedUp.isData = true ∧ (0 : U16).toInt ≤ 135 ∧
    (joined 5 0).sessionValid = true ∧ (joined 5 0).deliverEn = true ∧
    checkRecord.addr = (joined 5 0).session.devAddr ∧ checkRecord.port = some 7 ∧ (7 : Byte) ≠ 0 ∧
    checkRecord.opts.length ≤ 15 ∧ checkRecord.opts.length + checkRecord.app.length ≤ 51 ∧
    (6 : U32).toNat / 65536 = (joined 5 0).session.fcntUp.toNat / 65536 ∧
    (joined 5 0).session.fcntUp.toNat < (6 : U32).toNat ∧
    FrameType.unconfirmedUp ≠ FrameType.confirmedUp ∧ checkRecord.opts.head? = some 0x02 := by decide +kernel

/-- The frame of V44 row 3 a second time. -/
theorem witness_Replay : FrameType.unconfirmedUp.isData = true ∧
    accept (fcntCand (u16le ((hex 8 0xda1b012600060001).getD 5 0) ((hex 8 0xda1b012600060001).getD 6 0))
        (joined 6 0).session.fcntUp false) (joined 6 0).session.nwkSKey FrameType.unconfirmedUp.dir
      (joined 6 0).session.devAddr (FrameType.unconfirmedUp.toByte :: (hex 8 0xda1b012600060001)) (b4 0x5f91d8da)
        = some (joined 6 0).session.fcntUp ∧
    (joined 6 0).session.fcntUp ≠ 0 ∧
    ∃ u, exec (frameInstr .unconfirmedUp (hex 8 0xda1b012600060001) (b4 0x5f91d8da) 0 false) (joined 6 0) = .next u :=
  ⟨by decide, by decide +kernel, by decide, next_of_isNext (by decide +kernel)⟩
theorem witness_CounterZero : (135 : U16).toInt ≤ 135 ∧ frame0.length ≤ 59 ∧ (joined 0 0).sessionValid = true ∧
    (joined 0 0).session.fcntUp = 0 ∧ macDec frame0 = .ok record0 ∧ record0.addr = (joined 0 0).session.devAddr ∧
    record0.fcnt16 = 0 ∧ record0.opts = [] ∧ record0.port ≠ some 0 ∧ (joined 0 0).deliverEn = true ∧
    micData (joined 0 0).session.nwkSKey 0 .up (joined 0 0).session.devAddr (0x40 :: frame0) = b4 0xedad38fb := by
  decide +kernel
theorem witness_ReceptionEvents : ∃ u, exec (.rxFrame (zeros 12) 0 false) unjoined = .next u :=
  next_of_isNext (by decide +kernel)
theorem witness_OnlyThreeCommands : Instr.isCommand (.fcntClass 0 0) = true ∧
    (∀ raw rssi ra, Instr.fcntClass 0 0 ≠ .rxFrame raw rssi ra) ∧
    (∀ a k n up down, Instr.fcntClass 0 0 ≠ .sessLoad a k n up down) ∧ (∀ cfg, Instr.fcntClass 0 0 ≠ .cfgSet cfg) :=
  ⟨rfl, nofun, nofun, nofun⟩

/-- Every clause of StateIsWrittenOnlyByItsOwners at once: a computational command in a joined state. -/
theorem witness_StateIsWritten : (∃ u, exec (.fcntClass 0 0) (joined 5 0) = .next u) ∧ (joined 5 0).sessionValid = true ∧
    (Instr.fcntClass 0 0).instrClass ≠ .frame ∧ (Instr.cfgSet 0).isComputational = false ∧
    ∃ u, exec (.cfgSet 0) (joined 5 0) = .next u :=
  ⟨⟨_, rfl⟩, rfl, nofun, rfl, next_of_isNext (by decide +kernel)⟩
theorem witness_IdentityOnlyInJoins : (∀ payload tag rssi ra, Instr.rxFrame [0x40] 0 false ≠ .typeJoinRequest payload tag rssi ra) ∧
    (∀ raw rssi ra, Instr.rxFrame [0x40] 0 false = .rxFrame raw rssi ra → raw.head? ≠ some 0x00) ∧
    (∃ u, exec (.rxFrame [0x40] 0 false) unjoined = .next u) ∧
    (∃ r, exec (.rxFrame [0x40] 136 false) unjoined = .refused r) :=
  ⟨nofun, by intro raw rssi ra h; cases h; decide, next_of_isNext (by decide +kernel), ⟨_, rfl⟩⟩

/-- A SESS.LOAD of a record older than the stored one. -/
theorem witness_UplinkCounter : ∃ u, issued (joined 5 0) (encode (.sessLoad (b4 0) zeroBlock zeroBlock 0 0)) = .next u ∧
    u.session.fcntUp.toNat < (joined 5 0).session.fcntUp.toNat := ⟨_, rfl, by decide⟩
theorem witness_Unjoined : sameWhileUnjoined unjoined { unjoined with session := ⟨b4 0x26011bda, appKey, nwkKey, 7, 9⟩ } :=
  ⟨rfl, rfl, rfl, rfl⟩
theorem witness_NothingHappens : (unjoined.withEnables false false).sessionValid = false ∧
    (unjoined.withEnables false false).joinEn = false ∧ (unjoined.withEnables false false).deliverEn = false ∧
    Instr.wellFormed (.rxFrame (zeros 255) 135 true) = true ∧ (∀ cfg, Instr.rxFrame (zeros 255) 135 true ≠ .cfgSet cfg) ∧
    (∀ a k n up down, Instr.rxFrame (zeros 255) 135 true ≠ .sessLoad a k n up down) :=
  ⟨rfl, rfl, rfl, by decide +kernel, nofun, nofun⟩
theorem witness_Refused : Instr.wellFormed (.cfgSet 3) = true ∧ Instr.isCommand (.cfgSet 4) = true ∧
    Instr.wellFormed (.cfgSet 4) = false := by decide
theorem witness_StepRuns : decode [0x71, 0x03] = .ok (.cfgSet 3) ∧ decode [] = .error .tooShort ∧ unjoined.events = [] ∧
    ({ unjoined with host := [.issue [0x71, 0x03]] } : State).host = .issue [0x71, 0x03] :: [] := by decide +kernel
theorem witness_Busy : ({ unjoined with events := [.joined], host := [.issue [], .wait] } : State).events ≠ [] ∧
    ({ unjoined with host := [.wait] } : State).host = .wait :: [] ∧ unjoined.host = [] ∧ unjoined.events = [] := by
  decide +kernel

/-- The events of P1, pending with the session that they carry. -/
theorem witness_StepKeeps : ({ joined 0 0 with events := [.emit (zeros 33) 33 5000, .save (joined 0 0).session, .joined] } : State).EventsInv ∧
    ∃ u, step { joined 0 0 with events := [.emit (zeros 33) 33 5000, .save (joined 0 0).session, .joined] } = .next u :=
  ⟨⟨by decide +kernel, by intro r h; simp at h; exact ⟨h, rfl⟩⟩, ⟨_, rfl⟩⟩
theorem witness_CommandIsReadBack : Instr.isCommand (.macEnc (b4 0) 0xF0 0xFFFF (zeros 15) true 1 (zeros 36)) = true ∧
    Instr.wellFormed (.macEnc (b4 0) 0xF0 0xFFFF (zeros 15) true 1 (zeros 36)) = true ∧
    Instr.wellFormed (.cmacTag zeroBlock (zeros 255)) = true := by decide +kernel
theorem witness_CommandBytes : decode [0x50, 0x02, 0x00, 0xfe, 0xff, 0x01, 0x00, 0x01] = .ok (.fcntCand 2 0x0001fffe true) := by
  decide +kernel
theorem witness_FrameIsReadBack : (frameInstr .joinAccept (zeros 7) (b4 0) 135 true).wellFormed = true ∧
    (frameInstr .confirmedDown (zeros 59) (b4 0) 0x8000 false).wellFormed = true := by decide +kernel

end Sys2Proof.Tests
end

section
/-! PROOFS. The sixteen computational commands are independent of the state (spec/10_state.md R18): the two ways in
which they answer, and the refusal that may come before, each are. -/

namespace Sys2Proof.Machine

/-- R18: a meaning that neither reads nor writes the state. It answers every state with the same response and leaves all
else, or it refuses every state by the same name. -/
def StateFree (meaning : State → Out) : Prop :=
  (∃ r, ∀ s, meaning s = .next { s with response := r }) ∨ (∃ e, ∀ s, meaning s = .refused (.illFormed e))

/-- R61: an answer that is OK. -/
theorem stateFree_reply (results : List Byte) : StateFree (reply results) :=
  .inl ⟨0x00 :: results, reply_eq results⟩

/-- R265: an answer that is OK or FAIL. -/
theorem stateFree_checkReply (outcome : Except LocalFail (List Byte)) : StateFree (checkReply outcome) := by
  cases outcome with
  | ok results => exact .inl ⟨0x00 :: results, checkReply_ok results⟩
  | error e => exact .inl ⟨[0x01], checkReply_error e⟩

/-- R266: a check of the operands comes before the state is looked at, so it keeps a meaning free of it. -/
theorem StateFree.require {meaning : State → Out} (h : StateFree meaning) (issue : Option IllFormed) :
    StateFree fun s => Machine.require issue (meaning s) := by
  cases issue with
  | none => exact h
  | some e => exact .inr ⟨e, fun s => require_some e (meaning s)⟩

/-- R18, R62: the cases are the commands without a check of their operands, the PURE commands with one, and the CHECK
commands, each of which has one too. -/
theorem stateFree_exec {i : Instr} (h : i.isComputational = true) : StateFree (exec i) := by
  cases i with
  | aesEnc | aesDec | jaccEnc | fcntCand | fcntClass => exact stateFree_reply _
  | cmacTag | micPlain | micData | ctrApply | kdfDerive | frmEnc | macEnc => exact (stateFree_reply _).require _
  | micCheck | frmDec | macDec | jreqDec => exact (stateFree_checkReply _).require _
  | _ => exact absurd h Bool.false_ne_true

/-- R18, R62: the commands other than RX.FRAME, SESS.LOAD and CFG.SET are the computational ones. -/
theorem isComputational_of_isCommand {i : Instr} (hcmd : i.isCommand = true)
    (hrx : ∀ raw rssi ra, i ≠ .rxFrame raw rssi ra) (hload : ∀ a k n up down, i ≠ .sessLoad a k n up down)
    (hcfg : ∀ cfg, i ≠ .cfgSet cfg) : i.isComputational = true := by
  cases i with
  | rxFrame => exact absurd rfl (hrx _ _ _)
  | sessLoad => exact absurd rfl (hload _ _ _ _ _)
  | cfgSet => exact absurd rfl (hcfg _)
  | typeJoinRequest | typeJoinAccept | typeUnconfirmedUp | typeUnconfirmedDown | typeConfirmedUp
  | typeConfirmedDown => exact absurd hcmd Bool.false_ne_true
  | _ => rfl

/-- Settles O45: such a command is computational, and the meaning of every computational command is free of the
state. -/
theorem onlyThreeCommandsTouchTheState : Obligations.OnlyThreeCommandsTouchTheState := by
  intro i hcmd hrx hload hcfg
  exact stateFree_exec (isComputational_of_isCommand hcmd hrx hload hcfg)

end Sys2Proof.Machine
end

section
/-! PROOFS. The bytes and the columns of a block (spec/40_block_cipher.md R101): what each operation on blocks does to
them. -/

namespace Sys2Proof

/-- R101: column `c` of the state array; also word `c` of a round key (R104). -/
def Block.column (b : Block) : Nat → Bytes4
  | 0 => b.c0
  | 1 => b.c1
  | 2 => b.c2
  | _ => b.c3

/-- R101: column `c` holds bytes `4c` to `4c + 3` of the block. -/
theorem Block.column_eq_bytes (b : Block) {c : Nat} (hc : c < 4) :
    b.column c = ⟨b.toList.getD (4 * c + 0) 0, b.toList.getD (4 * c + 1) 0, b.toList.getD (4 * c + 2) 0,
      b.toList.getD (4 * c + 3) 0⟩ := by
  interval_cases c <;> rfl

theorem Block.toList_map (f : Byte → Byte) (b : Block) : (b.map f).toList = b.toList.map f := rfl

theorem Block.toList_xor (a b : Block) : (a.xor b).toList = List.zipWith (· ^^^ ·) a.toList b.toList := rfl

theorem Block.toList_map_getD (f : Byte → Byte) (b : Block) {k : Nat} (hk : k < 16) :
    (b.map f).toList.getD k 0 = f (b.toList.getD k 0) := by
  have hb : k < b.toList.length := hk
  rw [Block.toList_map, List.getD_eq_getElem _ _ hb, List.getD_eq_getElem _ _ (by simpa using hk), List.getElem_map]

theorem Block.toList_xor_getD (a b : Block) {k : Nat} (hk : k < 16) :
    (a.xor b).toList.getD k 0 = a.toList.getD k 0 ^^^ b.toList.getD k 0 := by
  have ha : k < a.toList.length := hk
  have hb : k < b.toList.length := hk
  rw [Block.toList_xor, List.getD_eq_getElem _ _ ha, List.getD_eq_getElem _ _ hb,
    List.getD_eq_getElem _ _ (by simpa using hk), List.getElem_zipWith]

/-- Applying a function to every byte and then a left inverse of it gives the block back. -/
theorem Block.map_map_cancel {f g : Byte → Byte} (h : ∀ a, g (f a) = a) (b : Block) : (b.map f).map g = b := by
  simp [Block.map, Bytes4.map, h]

end Sys2Proof
end

section
/-! PROOFS. The S-box (spec/40_block_cipher.md R103, R111). The inverse in GF(2^8) that lies behind an entry of the
table is read off the entry, by undoing the affine map. -/

namespace Sys2Proof.Machine

/-- R103: the affine map of the S-box. -/
def sboxAffine (b : Byte) : Byte :=
  b ^^^ b.rotateLeft 1 ^^^ b.rotateLeft 2 ^^^ b.rotateLeft 3 ^^^ b.rotateLeft 4 ^^^ 0x63

/-- The inverse of the affine map of R103. -/
def sboxAffineInv (c : Byte) : Byte := c.rotateLeft 1 ^^^ c.rotateLeft 3 ^^^ c.rotateLeft 6 ^^^ 0x05

theorem sboxAffine_sboxAffineInv : ∀ c : Byte, sboxAffine (sboxAffineInv c) = c := by decide +kernel

/-- R103: the byte behind each entry of the table is the inverse in GF(2^8) of the byte it is the entry of. -/
theorem sboxAffineInv_sbox_isInverse :
    ∀ a : Byte, if a = 0 then sboxAffineInv (sbox a) = 0 else gmul a (sboxAffineInv (sbox a)) = 1 := by
  decide +kernel

/-- R111: InvSbox undoes Sbox. -/
@[simp] theorem invSbox_sbox : ∀ a : Byte, invSbox (sbox a) = a := by decide +kernel

/-- R111: Sbox undoes InvSbox. -/
@[simp] theorem sbox_invSbox : ∀ a : Byte, sbox (invSbox a) = a := by decide +kernel

/-- Settles O1: the byte asked for is what the affine map takes to the entry of the table. -/
theorem sboxFollowsItsDefinition : Obligations.SboxFollowsItsDefinition := by
  refine ⟨fun a => ⟨sboxAffineInv (sbox a), sboxAffineInv_sbox_isInverse a, ?_, invSbox_sbox a⟩, ?_⟩
  · exact (sboxAffine_sboxAffineInv (sbox a)).symm
  · decide +kernel

end Sys2Proof.Machine
end

section
/-! PROOFS. The key expansion (spec/40_block_cipher.md R104): each round key comes from the one before it, and its words
are four of the 44. -/

namespace Sys2Proof.Machine

@[simp] theorem length_expandKey (k : Block) (rcs : List Byte) : (expandKey k rcs).length = rcs.length + 1 := by
  induction rcs generalizing k with
  | nil => rfl
  | cons rc rest ih => simp [expandKey, ih]

theorem expandKey_getD_zero (k z : Block) (rcs : List Byte) : (expandKey k rcs).getD 0 z = k := by
  cases rcs <;> rfl

/-- R104: the round key at place `r + 1` comes from the one at place `r` by constant `r` of the list. -/
theorem expandKey_getD_succ (k z : Block) {rcs : List Byte} {r : Nat} (hr : r < rcs.length) :
    (expandKey k rcs).getD (r + 1) z = nextRoundKey ((expandKey k rcs).getD r z) (rcs.getD r 0) := by
  induction rcs generalizing k r with
  | nil => exact absurd hr (Nat.not_lt_zero r)
  | cons rc rest ih =>
    cases r with
    | zero => exact expandKey_getD_zero (nextRoundKey k rc) z rest
    | succ r => exact ih (nextRoundKey k rc) (Nat.lt_of_succ_lt_succ hr)

/-- R104: `RK(0)` is the key. -/
@[simp] theorem roundKey_zero (key : Block) : roundKey key 0 = key := rfl

/-- R104: `RK(r + 1)` comes from `RK(r)` by `Rcon[r + 1]`. -/
theorem roundKey_succ (key : Block) {r : Nat} (hr : r < 10) :
    roundKey key (r + 1) = nextRoundKey (roundKey key r) (rcons.getD r 0) :=
  expandKey_getD_succ key zeroBlock hr

/-- R104: word `w[i]` of the key expansion. -/
def keyWord (key : Block) (i : Nat) : Bytes4 := (roundKey key (i / 4)).column (i % 4)

/-- R104: round key `r` is the words `w[4r]` to `w[4r+3]`. -/
theorem keyWord_eq_column (key : Block) (r : Nat) {j : Nat} (hj : j < 4) :
    keyWord key (4 * r + j) = (roundKey key r).column j := by
  have hdiv : (4 * r + j) / 4 = r := by omega
  have hmod : (4 * r + j) % 4 = j := by omega
  rw [keyWord, hdiv, hmod]

theorem keyWord_four_mul (key : Block) (r : Nat) : keyWord key (4 * r) = (roundKey key r).column 0 :=
  keyWord_eq_column key r (by decide : 0 < 4)

/-- R104: the first word of a round key, byte by byte of what is added to the word four places back. -/
theorem nextRoundKey_column_zero (k : Block) (rcon : Byte) :
    (nextRoundKey k rcon).column 0 =
      k.c0.xor ⟨sbox k.c3.b1 ^^^ rcon, sbox k.c3.b2, sbox k.c3.b3, sbox k.c3.b0⟩ := by
  simp [nextRoundKey, Block.column, keyCore, subWord, rotWord, Bytes4.map, Bytes4.xor]

/-- R104: every other word of a round key is the word four places back XOR the word before it. -/
theorem nextRoundKey_column_succ (k : Block) (rcon : Byte) {j : Nat} (hj : j < 3) :
    (nextRoundKey k rcon).column (j + 1) = (k.column (j + 1)).xor ((nextRoundKey k rcon).column j) := by
  interval_cases j <;> rfl

/-- R104: the recurrence at a multiple of 4. -/
theorem keyWord_recurrence_core (key : Block) {r : Nat} (hr : r < 10) :
    keyWord key (4 * (r + 1)) = (keyWord key (4 * r)).xor
      (let t := keyWord key (4 * r + 3)
       ⟨sbox t.b1 ^^^ rcons.getD r 0, sbox t.b2, sbox t.b3, sbox t.b0⟩) := by
  rw [keyWord_four_mul, keyWord_four_mul, keyWord_eq_column key r (by decide), roundKey_succ key hr,
    nextRoundKey_column_zero]
  rfl

/-- R104: the recurrence at the other places. -/
theorem keyWord_recurrence_xor (key : Block) {r j : Nat} (hr : r < 10) (hj : j < 3) :
    keyWord key (4 * (r + 1) + (j + 1)) =
      (keyWord key (4 * r + (j + 1))).xor (keyWord key (4 * (r + 1) + j)) := by
  rw [keyWord_eq_column key (r + 1) (by omega), keyWord_eq_column key r (by omega),
    keyWord_eq_column key (r + 1) (by omega), roundKey_succ key hr, nextRoundKey_column_succ _ _ hj]

/-- Settles O2: the words are the columns of the round keys, and place `i` is column 0 or a later column of the round
key after that of place `i - 4`. -/
theorem keyExpansionFollowsTheRecurrence : Obligations.KeyExpansionFollowsTheRecurrence := by
  refine ⟨fun key => ⟨keyWord key, fun r _ => ?_, roundKey_zero key, fun i hlo hhi => ?_⟩, ?_, ?_⟩
  · rw [keyWord_four_mul, keyWord_eq_column key r (by decide), keyWord_eq_column key r (by decide),
      keyWord_eq_column key r (by decide)]
    rfl
  · by_cases hcore : i % 4 = 0
    · obtain ⟨r, rfl⟩ : ∃ r, i = 4 * (r + 1) := ⟨i / 4 - 1, by omega⟩
      have hdiv : 4 * (r + 1) / 4 - 1 = r := by omega
      rw [if_pos hcore, hdiv]
      exact keyWord_recurrence_core key (by omega)
    · obtain ⟨r, j, hj, rfl⟩ : ∃ r j, j < 3 ∧ i = 4 * (r + 1) + (j + 1) :=
        ⟨i / 4 - 1, i % 4 - 1, by omega, by omega⟩
      have hback : 4 * (r + 1) + (j + 1) - 4 = 4 * r + (j + 1) := by omega
      rw [if_neg hcore, hback]
      exact keyWord_recurrence_xor key (by omega) hj
  · decide +kernel
  · decide +kernel

end Sys2Proof.Machine
end

section
/-! PROOFS. The round steps (spec/40_block_cipher.md R105 to R108, R112 to R114) on the bytes of a block. The products
of the two mixes are sums of powers of `xtime`, which is additive; so either mix undoes the other by cancelling equal
terms. -/

namespace Sys2Proof.Machine

/-- R102: multiplication by x is additive. -/
theorem xtime_xor (a b : Byte) : xtime (a ^^^ b) = xtime a ^^^ xtime b := by
  unfold xtime
  rw [BitVec.msb_xor, BitVec.shiftLeft_xor_distrib]
  cases a.msb <;> cases b.msb
  case false.false => rfl
  case false.true => exact BitVec.xor_assoc _ _ _
  case true.false => simp; ac_rfl
  case true.true =>
    simp only [Bool.xor_self, Bool.false_eq_true, if_false, if_true]
    ac_nf
    rw [xor_cancel_left]

/-! R102: the products by the six coefficients of R108 and R114. -/

theorem gmul_two (a : Byte) : gmul a 2 = xtime a := by simp [gmul, gmulTurn]
theorem gmul_three (a : Byte) : gmul a 3 = a ^^^ xtime a := by simp [gmul, gmulTurn]
theorem gmul_nine (a : Byte) : gmul a 9 = a ^^^ xtime (xtime (xtime a)) := by simp [gmul, gmulTurn]
theorem gmul_eleven (a : Byte) : gmul a 11 = a ^^^ xtime a ^^^ xtime (xtime (xtime a)) := by simp [gmul, gmulTurn]
theorem gmul_thirteen (a : Byte) : gmul a 13 = a ^^^ xtime (xtime a) ^^^ xtime (xtime (xtime a)) := by
  simp [gmul, gmulTurn]
theorem gmul_fourteen (a : Byte) : gmul a 14 = xtime a ^^^ xtime (xtime a) ^^^ xtime (xtime (xtime a)) := by
  simp [gmul, gmulTurn]

/-- R108, R114: on a column, either mix undoes the other: in each byte every term but the byte itself occurs an even
number of times. -/
theorem mixColumn_inverses (a : Bytes4) : invMixColumn (mixColumn a) = a ∧ mixColumn (invMixColumn a) = a := by
  obtain ⟨a0, a1, a2, a3⟩ := a
  simp only [mixColumn, invMixColumn, gmul_two, gmul_three, gmul_nine, gmul_eleven, gmul_thirteen, gmul_fourteen,
    xtime_xor, Bytes4.mk.injEq]
  refine ⟨⟨?_, ?_, ?_, ?_⟩, ?_, ?_, ?_, ?_⟩ <;> ac_nf <;>
    simp only [xor_cancel_left, BitVec.xor_self, BitVec.xor_zero]

/-! R105 to R108, R112 to R114: each step and its inverse. -/

@[simp] theorem invMixColumns_mixColumns (s : Block) : invMixColumns (mixColumns s) = s := by
  simp [invMixColumns, mixColumns, mixColumn_inverses]

@[simp] theorem mixColumns_invMixColumns (s : Block) : mixColumns (invMixColumns s) = s := by
  simp [invMixColumns, mixColumns, mixColumn_inverses]

@[simp] theorem invShiftRows_shiftRows (s : Block) : invShiftRows (shiftRows s) = s := rfl

@[simp] theorem shiftRows_invShiftRows (s : Block) : shiftRows (invShiftRows s) = s := rfl

@[simp] theorem invSubBytes_subBytes (s : Block) : invSubBytes (subBytes s) = s := Block.map_map_cancel invSbox_sbox s

@[simp] theorem subBytes_invSubBytes (s : Block) : subBytes (invSubBytes s) = s := Block.map_map_cancel sbox_invSbox s

@[simp] theorem addRoundKey_addRoundKey (s rk : Block) : addRoundKey (addRoundKey s rk) rk = s :=
  Block.xor_self_cancel s rk

/-! R107, R108, R113, R114: the moves of the rows on bytes, and the mixes on columns. -/

theorem shiftRows_getElem? (s : Block) {r c : Nat} (hr : r < 4) (hc : c < 4) :
    (shiftRows s).toList[r + 4 * c]? = s.toList[r + 4 * ((c + r) % 4)]? := by
  interval_cases r <;> interval_cases c <;> rfl

theorem invShiftRows_getElem? (s : Block) {r c : Nat} (hr : r < 4) (hc : c < 4) :
    (invShiftRows s).toList[r + 4 * ((c + r) % 4)]? = s.toList[r + 4 * c]? := by
  have h := shiftRows_getElem? (invShiftRows s) hr hc
  rwa [shiftRows_invShiftRows, eq_comm] at h

theorem mixColumns_column (s : Block) {c : Nat} (hc : c < 4) :
    (mixColumns s).column c = mixColumn (s.column c) := by
  interval_cases c <;> rfl

theorem invMixColumns_column (s : Block) {c : Nat} (hc : c < 4) :
    (invMixColumns s).column c = invMixColumn (s.column c) := by
  interval_cases c <;> rfl

/-- Settles O3: the steps on single bytes are those of `Block.map` and `Block.xor`, and the products of the two mixes
are read off the columns. -/
theorem roundStepsOnBytes : Obligations.RoundStepsOnBytes := by
  refine ⟨fun s rk k hk => ⟨Block.toList_xor_getD s rk hk, Block.toList_map_getD sbox s hk,
      Block.toList_map_getD invSbox s hk⟩, addRoundKey_addRoundKey,
    fun s r c hr hc => ⟨shiftRows_getElem? s hr hc, invShiftRows_getElem? s hr hc⟩, ?_,
    fun s => ⟨invShiftRows_shiftRows s, invMixColumns_mixColumns s⟩, ?_⟩
  · intro s c hc a o o'
    have ha : s.column c = ⟨a 0, a 1, a 2, a 3⟩ := s.column_eq_bytes hc
    have ho : ⟨o 0, o 1, o 2, o 3⟩ = mixColumn ⟨a 0, a 1, a 2, a 3⟩ := by
      rw [← ha, ← mixColumns_column s hc]
      exact ((mixColumns s).column_eq_bytes hc).symm
    have ho' : ⟨o' 0, o' 1, o' 2, o' 3⟩ = invMixColumn ⟨a 0, a 1, a 2, a 3⟩ := by
      rw [← ha, ← invMixColumns_column s hc]
      exact ((invMixColumns s).column_eq_bytes hc).symm
    simp only [mixColumn, Bytes4.mk.injEq] at ho
    simp only [invMixColumn, Bytes4.mk.injEq] at ho'
    obtain ⟨h0, h1, h2, h3⟩ := ho
    obtain ⟨h0', h1', h2', h3'⟩ := ho'
    exact ⟨h0, h1, h2, h3, h0', h1', h2', h3'⟩
  · decide +kernel

end Sys2Proof.Machine
end

section
/-! PROOFS. The two transforms (spec/40_block_cipher.md R109, R115): their rounds in order, and that each undoes the
other. SubBytes and ShiftRows make a layer that the rounds of both share: the inverse cipher, after each of its rounds,
stands behind that layer where the cipher stood before the round of the same key. -/

namespace Sys2Proof.Machine

/-! R109, R115: the rounds as a fold over the keys of the full rounds, and then the last round. -/

theorem encRounds_append_singleton (s rk : Block) (ks : List Block) :
    encRounds s (ks ++ [rk]) = encLastRound (ks.foldl encRound s) rk := by
  induction ks generalizing s with
  | nil => rfl
  | cons k ks ih =>
    rw [List.foldl_cons, ← ih]
    cases ks <;> rfl

theorem decRounds_append_singleton (s rk : Block) (ks : List Block) :
    decRounds s (ks ++ [rk]) = decLastRound (ks.foldl decRound s) rk := by
  induction ks generalizing s with
  | nil => rfl
  | cons k ks ih =>
    rw [List.foldl_cons, ← ih]
    cases ks <;> rfl

/-- R109: the keys `RK(1)` to `RK(9)` of the full rounds. -/
def fullRoundKeys (key : Block) : List Block := [1, 2, 3, 4, 5, 6, 7, 8, 9].map (roundKey key)

/-- R104: the eleven round keys, the first and the last apart from the nine of the full rounds. -/
theorem roundKeys_eq (key : Block) :
    roundKeys key = roundKey key 0 :: (fullRoundKeys key ++ [roundKey key 10]) := rfl

/-- R109: AesEnc as the nine full rounds and the last one. -/
theorem aesEnc_eq (key blk : Block) :
    aesEnc key blk =
      encLastRound ((fullRoundKeys key).foldl encRound (addRoundKey blk (roundKey key 0))) (roundKey key 10) := by
  rw [aesEnc, roundKeys_eq, List.tail_cons, encRounds_append_singleton]

/-- R115: AesDec as the nine full rounds, their keys in the opposite order, and the last one. -/
theorem aesDec_eq (key blk : Block) :
    aesDec key blk =
      decLastRound ((fullRoundKeys key).reverse.foldl decRound (addRoundKey blk (roundKey key 10)))
        (roundKey key 0) := by
  rw [aesDec, roundKeys_eq, List.reverse_cons, List.reverse_append, List.reverse_singleton, List.singleton_append,
    List.cons_append, List.tail_cons, decRounds_append_singleton]

/-! Each transform undoes the other: round by round, then along the keys, then at both ends. -/

/-- R115: a round of the inverse cipher takes the layer after an encryption round to the layer before it. -/
theorem decRound_encRound (s rk : Block) :
    decRound (shiftRows (subBytes (encRound s rk))) rk = shiftRows (subBytes s) := by
  simp [decRound, encRound]

/-- R109: an encryption round takes the inverse layer after a round of the inverse cipher to the one before it. -/
theorem encRound_decRound (s rk : Block) :
    encRound (invSubBytes (invShiftRows (decRound s rk))) rk = invSubBytes (invShiftRows s) := by
  simp [decRound, encRound]

theorem foldl_decRound_foldl_encRound (s : Block) (ks : List Block) :
    ks.reverse.foldl decRound (shiftRows (subBytes (ks.foldl encRound s))) = shiftRows (subBytes s) := by
  induction ks generalizing s with
  | nil => rfl
  | cons k ks ih =>
    rw [List.reverse_cons, List.foldl_append, List.foldl_cons, List.foldl_cons, List.foldl_nil, ih, decRound_encRound]

theorem foldl_encRound_foldl_decRound (s : Block) (ks : List Block) :
    ks.foldl encRound (invSubBytes (invShiftRows (ks.reverse.foldl decRound s))) = invSubBytes (invShiftRows s) := by
  induction ks generalizing s with
  | nil => rfl
  | cons k ks ih =>
    rw [List.reverse_cons, List.foldl_append, List.foldl_cons, List.foldl_cons, List.foldl_nil, encRound_decRound, ih]

/-- R116: AesDec undoes AesEnc. -/
theorem aesDec_aesEnc (key blk : Block) : aesDec key (aesEnc key blk) = blk := by
  rw [aesEnc_eq, aesDec_eq, encLastRound, addRoundKey_addRoundKey, foldl_decRound_foldl_encRound, decLastRound,
    invShiftRows_shiftRows, invSubBytes_subBytes, addRoundKey_addRoundKey]

/-- R116: AesEnc undoes AesDec. -/
theorem aesEnc_aesDec (key blk : Block) : aesEnc key (aesDec key blk) = blk := by
  rw [aesDec_eq, aesEnc_eq, decLastRound, addRoundKey_addRoundKey, foldl_encRound_foldl_decRound, encLastRound,
    subBytes_invSubBytes, shiftRows_invShiftRows, addRoundKey_addRoundKey]

/-- Settles O4: the rounds are the folds of `aesEnc_eq` and `aesDec_eq`, and AesDec is the inverse of AesEnc. -/
theorem roundsRunInOrder : Obligations.RoundsRunInOrder := by
  intro key
  refine ⟨fun blk => ?_, fun blk => ?_, ?_⟩
  · rw [aesEnc_eq, fullRoundKeys, List.foldl_map]
    rfl
  · rw [aesDec_eq, fullRoundKeys, ← List.map_reverse, List.foldl_map]
    rfl
  · exact Function.bijective_iff_has_inverse.mpr ⟨aesDec key, aesDec_aesEnc key, aesEnc_aesDec key⟩

end Sys2Proof.Machine
end

section
/-! PROOFS. The doubling step on numbers (spec/41_cmac.md R131): a byte string shifted left by one bit is twice the
number less what falls out at the top, and an XOR of the last byte is an XOR of the number. -/

namespace Sys2Proof.Machine

theorem bytesValue_concat (B : List Byte) (b : Byte) : bytesValue (B ++ [b]) = 256 * bytesValue B + b.toNat := by
  simp [bytesValue]

theorem bytesValue_cons (b : Byte) (B : List Byte) :
    bytesValue (b :: B) = b.toNat * 256 ^ B.length + bytesValue B := by
  induction B using List.reverseRecOn with
  | nil => simp [bytesValue]
  | append_singleton B c ih =>
    rw [← List.cons_append, bytesValue_concat, bytesValue_concat, ih, List.length_append, List.length_singleton]
    ring

theorem bytesValue_lt (B : List Byte) : bytesValue B < 256 ^ B.length := by
  induction B using List.reverseRecOn with
  | nil => simp [bytesValue]
  | append_singleton B b ih =>
    rw [bytesValue_concat, List.length_append, List.length_singleton, pow_succ]
    have := b.isLt
    omega

/-- R131: an XOR that touches the last byte only. -/
theorem bytesValue_concat_xor (B : List Byte) (b r : Byte) :
    bytesValue (B ++ [b ^^^ r]) = bytesValue (B ++ [b]) ^^^ r.toNat := by
  rw [bytesValue_concat, bytesValue_concat, BitVec.toNat_xor]
  generalize bytesValue B = n
  have hb := b.isLt
  have hr := r.isLt
  have hx : b.toNat ^^^ r.toNat < 2 ^ 8 := Nat.xor_lt_two_pow hb hr
  have hmod : (256 * n + b.toNat ^^^ r.toNat) % 2 ^ 8 = b.toNat ^^^ r.toNat := by
    rw [Nat.xor_mod_two_pow, Nat.mod_eq_of_lt hr, show (256 * n + b.toNat) % 2 ^ 8 = b.toNat by omega]
  have hdiv : (256 * n + b.toNat ^^^ r.toNat) / 2 ^ 8 = n := by
    rw [Nat.xor_div_two_pow, Nat.div_eq_of_lt hr, Nat.xor_zero]
    omega
  omega

theorem shl1_toNat (b next : Byte) : (shl1 b next).toNat = 2 * (b.toNat % 128) + next.toNat / 128 := by
  have hn : next.toNat / 128 < 2 ^ 1 := by have := next.isLt; omega
  have hs : (b <<< 1).toNat = 2 ^ 1 * (b.toNat % 128) := by
    rw [BitVec.toNat_shiftLeft, Nat.shiftLeft_eq]
    omega
  rw [shl1, BitVec.toNat_or, hs, BitVec.toNat_ushiftRight, Nat.shiftRight_eq_div_pow,
    ← Nat.two_pow_add_eq_or_of_lt hn]

@[simp] theorem shl1_zero (b : Byte) : shl1 b 0#8 = b <<< 1 := by simp [shl1]

/-- R131: a byte string shifted left by one bit, its last bit filled with 0; it is how `dbl` makes each byte but for
the XOR (`dbl_toList`). -/
def shlBytes : List Byte → List Byte
  | [] => []
  | b :: B => shl1 b (B.headD 0) :: shlBytes B

@[simp] theorem shlBytes_length (B : List Byte) : (shlBytes B).length = B.length := by
  induction B with
  | nil => rfl
  | cons b B ih => simp [shlBytes, ih]

/-- R131: the shift doubles the number, and the top bit of byte 0 falls out. -/
theorem bytesValue_shlBytes (B : List Byte) :
    bytesValue (shlBytes B) + (B.headD 0).toNat / 128 * 256 ^ B.length = 2 * bytesValue B := by
  induction B with
  | nil => rfl
  | cons b B ih =>
    have hb : b.toNat = 128 * (b.toNat / 128) + b.toNat % 128 := (Nat.div_add_mod _ _).symm
    rw [shlBytes, bytesValue_cons, bytesValue_cons, shl1_toNat, shlBytes_length, List.headD_cons, List.length_cons,
      pow_succ]
    linear_combination ih - 2 * 256 ^ B.length * hb

theorem dbl_toList (B : Block) :
    (dbl B).toList =
      (shlBytes B.toList).dropLast ++ [(B.c3.b3 <<< 1) ^^^ if B.c0.b0.msb then cmacRb else 0] := by
  cases h : B.c0.b0.msb <;> simp [dbl, h, Block.toList, Bytes4.toList, shlBytes]

theorem shlBytes_block (B : Block) : shlBytes B.toList = (shlBytes B.toList).dropLast ++ [B.c3.b3 <<< 1] := by
  simp [Block.toList, Bytes4.toList, shlBytes]

/-- The top bit of a block, as the number shows it. -/
theorem msb_iff_le_blockValue (B : Block) : B.c0.b0.msb ↔ 2 ^ 127 ≤ blockValue B := by
  have hcons : blockValue B = B.c0.b0.toNat * 256 ^ 15 + bytesValue B.toList.tail := bytesValue_cons ..
  have hlt : bytesValue B.toList.tail < 256 ^ 15 := bytesValue_lt _
  rw [BitVec.msb_eq_decide, decide_eq_true_iff]
  omega

theorem blockValue_dbl (B : Block) :
    blockValue (dbl B) = bytesValue (shlBytes B.toList) ^^^ (if 2 ^ 127 ≤ blockValue B then 0x87 else 0) := by
  rw [blockValue, dbl_toList, bytesValue_concat_xor, ← shlBytes_block]
  simp only [msb_iff_le_blockValue]
  split <;> rfl

/-- R131: the shift of a block keeps 128 bits of the doubled number. -/
theorem bytesValue_shlBytes_block (B : Block) : bytesValue (shlBytes B.toList) = 2 * blockValue B % 2 ^ 128 := by
  have hshift : bytesValue (shlBytes B.toList) + B.c0.b0.toNat / 128 * 256 ^ 16 = 2 * blockValue B :=
    bytesValue_shlBytes B.toList
  have hlt : bytesValue (shlBytes B.toList) < 256 ^ 16 := by simpa using bytesValue_lt (shlBytes B.toList)
  omega

/-- Settles O7: the shift keeps 128 bits of the doubled number, and the bit that falls out, which is whether the number
reaches 2^127, decides the XOR; the corner cases are evaluated. -/
theorem doublingActsOnTheNumber : Obligations.DoublingActsOnTheNumber := by
  refine ⟨fun B => ?_, by decide, by decide, by decide⟩
  have hB : blockValue B < 256 ^ 16 := bytesValue_lt B.toList
  rw [blockValue_dbl, bytesValue_shlBytes_block]
  by_cases h : blockValue B < 2 ^ 127
  · have hlow : 2 * blockValue B % 2 ^ 128 = 2 * blockValue B := by omega
    rw [if_pos h, if_neg (not_le.mpr h), Nat.xor_zero, hlow]
  · have hhigh : 2 * blockValue B % 2 ^ 128 = 2 * blockValue B - 2 ^ 128 := by omega
    rw [if_neg h, if_pos (not_lt.mp h), hhigh]

end Sys2Proof.Machine
end

section
/-! PROOFS. The keystream cipher by position (spec/42_ctr_cipher.md R150 to R153): byte `k` of the data meets byte
`k mod 16` of keystream block `k / 16 + 1`, and that byte does not depend on the data. -/

namespace Sys2Proof.Machine

/-- A concatenation of strings of one length, by position. -/
theorem getElem?_flatMap_range {α : Type} {f : Nat → List α} {c : Nat} (hf : ∀ j, (f j).length = c) {m k : Nat}
    (hk : k < c * m) : ((List.range m).flatMap f)[k]? = (f (k / c))[k % c]? := by
  have hlen (m : Nat) : ((List.range m).flatMap f).length = c * m := by simp [List.length_flatMap, hf, Nat.mul_comm]
  induction m with
  | zero => simp at hk
  | succ m ih =>
    rw [List.range_succ, List.flatMap_append, List.flatMap_singleton]
    by_cases h : k < c * m
    · rw [List.getElem?_append_left (by rwa [hlen]), ih h]
    · obtain ⟨r, rfl⟩ := Nat.exists_eq_add_of_le (not_lt.mp h)
      have hr : r < c := by rw [Nat.mul_succ] at hk; omega
      rw [List.getElem?_append_right (by rw [hlen]; omega), hlen, Nat.add_sub_cancel_left,
        Nat.mul_add_div (by omega), Nat.div_eq_of_lt hr, Nat.mul_add_mod, Nat.mod_eq_of_lt hr, Nat.add_zero]

/-- R76, R150: the keystream block, its counter block byte by byte. -/
theorem keystreamBlock_eq (key : Block) (cnt : U32) (dir : Dir) (addr : Bytes4) (i : Nat) :
    keystreamBlock key cnt dir addr i = aesEnc key
      ⟨⟨0x01, 0, 0, 0⟩, ⟨0, if dir = .up then 0 else 1, addr.b3, addr.b2⟩,
       ⟨addr.b1, addr.b0, BitVec.ofNat 8 cnt.toNat, BitVec.ofNat 8 (cnt.toNat / 2 ^ 8)⟩,
       ⟨BitVec.ofNat 8 (cnt.toNat / 2 ^ 16), BitVec.ofNat 8 (cnt.toNat / 2 ^ 24), 0, BitVec.ofNat 8 i⟩⟩ := by
  rw [keystreamBlock, keystreamInput, le32_eq]
  cases dir <;> rfl

/-- R151: byte `k` of the keystream. -/
theorem keystream_getElem? (key : Block) (cnt : U32) (dir : Dir) (addr : Bytes4) {n k : Nat} (hk : k < n) :
    (keystream key cnt dir addr n)[k]? =
      some ((keystreamBlock key cnt dir addr (k / 16 + 1)).toList.getD (k % 16) 0) := by
  have hlt : k % 16 < (keystreamBlock key cnt dir addr (k / 16 + 1)).toList.length := Nat.mod_lt _ (by decide)
  rw [keystream, getElem?_flatMap_range (fun _ => Block.toList_length _) (by omega), List.getD_eq_getElem _ _ hlt,
    List.getElem?_eq_getElem hlt]

/-- R151, R152: byte `k` of the transformed data, where the data has one. -/
theorem ctr_getElem? (data : List Byte) (cnt : U32) (addr : Bytes4) (key : Block) (dir : Dir) (k : Nat) :
    (ctr data cnt addr key dir)[k]? =
      data[k]?.map (· ^^^ (keystreamBlock key cnt dir addr (k / 16 + 1)).toList.getD (k % 16) 0) := by
  by_cases hk : k < data.length
  · simp [ctr, List.getElem?_zipWith, keystream_getElem? _ _ _ _ hk, hk]
  · rw [List.getElem?_eq_none (by simpa using hk), List.getElem?_eq_none (not_lt.mp hk), Option.map_none]

/-- Settles O12: the byte of `ctr_getElem?`, with the counter block of `keystreamBlock_eq`. -/
theorem keystreamBytesByPosition : Obligations.KeystreamBytesByPosition := by
  intro key cnt dir addr data _
  refine ⟨ctr_length .., fun k d hd => ?_⟩
  rw [ctr_getElem?, hd, keystreamBlock_eq, Option.map_some]

/-- Settles O13: at every position the two passes XOR the same keystream byte. -/
theorem keystreamIsSelfInverse : Obligations.KeystreamIsSelfInverse := by
  intro data cnt addr key dir
  refine List.ext_getElem? fun k => ?_
  rw [ctr_getElem?, ctr_getElem?, Option.map_map]
  simp [Function.comp_def]

end Sys2Proof.Machine
end

section
/-! PROOFS. FRM.DEC and JACC.ENC (spec/44_wire_codecs.md R170, R177): the outer decoder reads back what the outer
encoder writes, and decodes nothing but a string of 12 to 64 bytes that starts with a type byte. -/

namespace Sys2Proof.Machine

/-- R71: the six type bytes, as a list and as the image of the six types. -/
theorem mem_typeBytes_iff {b : Byte} :
    b ∈ [(0x00 : Byte), 0x20, 0x40, 0x60, 0x80, 0xA0] ↔ ∃ t : FrameType, b = t.toByte := by
  constructor
  · intro h
    simp only [List.mem_cons, List.not_mem_nil, or_false] at h
    obtain h | h | h | h | h | h := h
    · exact ⟨.joinRequest, h⟩
    · exact ⟨.joinAccept, h⟩
    · exact ⟨.unconfirmedUp, h⟩
    · exact ⟨.unconfirmedDown, h⟩
    · exact ⟨.confirmedUp, h⟩
    · exact ⟨.confirmedDown, h⟩
  · rintro ⟨t, rfl⟩
    cases t <;> decide

/-- R170, R171, R175 (3): the two slices of the decoder are the payload and the tag that were written. -/
theorem frmDec_frmEnc (t : FrameType) {payload : List Byte} (tag : Bytes4) (hmin : 7 ≤ payload.length)
    (hmax : payload.length ≤ 59) : frmDec (frmEnc t.toByte payload tag) = .ok ⟨t, payload, tag⟩ := by
  have hlen : ¬ (payload.length + 5 < frameMin ∨ frameMax < payload.length + 5) := by
    simp only [frameMin, frameMax]; omega
  have htype : byteAt (frmEnc t.toByte payload tag) 0 = t.toByte := rfl
  have hpayload : slice (frmEnc t.toByte payload tag) 1 (payload.length + 1) = payload := by
    simp [slice, frmEnc]
  have htag : slice (frmEnc t.toByte payload tag) (payload.length + 1) (payload.length + 5) = tag.toList := by
    simp [slice, frmEnc]
  have hcut : payload.length + 5 - 4 = payload.length + 1 := rfl
  simp only [frmDec, frmEnc_length, if_neg hlen, htype, FrameType.ofByte_toByte, hcut, hpayload, htag,
    Bytes4.ofBytes_toList]

/-- R170: a string of another length, or one that starts with no type byte, does not decode. -/
theorem frmDec_fails {raw : List Byte} (h : raw.length < 12 ∨ 64 < raw.length ∨
    ∀ b ∈ raw.head?, b ∉ [(0x00 : Byte), 0x20, 0x40, 0x60, 0x80, 0xA0]) : ∃ e, frmDec raw = .error e := by
  cases hdec : frmDec raw with
  | error e => exact ⟨e, rfl⟩
  | ok f =>
    obtain ⟨rfl, hmin, hmax⟩ := frmDec_ok hdec
    simp only [List.length_cons, List.length_append, Bytes4.toList_length] at h
    obtain hshort | hlong | htype := h
    · omega
    · omega
    · exact absurd (mem_typeBytes_iff.mpr ⟨f.type, rfl⟩) (htype _ rfl)

/-- R40, R170: up to 255 bytes FRM.DEC answers what the outer decoder does. -/
theorem exec_frmDec {raw : List Byte} (h : raw.length ≤ 255) (s : State) :
    exec (.frmDec raw) s = checkReply ((frmDec raw).map frameResults) s := by
  change require (checkRaw raw) _ = _
  rw [checkRaw_eq_none.mpr h, require_none]

/-- Settles O19: a legal frame is the encoding of its three fields, which decodes; every other string fails. -/
theorem frameDecodeAnswers : Obligations.FrameDecodeAnswers := by
  refine ⟨fun type payload tag s htype hmin hmax => ?_, fun raw s hlen hbad => ?_⟩
  · obtain ⟨t, rfl⟩ := mem_typeBytes_iff.mp htype
    change exec (.frmDec (frmEnc t.toByte payload tag)) s = _
    rw [exec_frmDec (by rw [frmEnc_length]; omega), frmDec_frmEnc t tag hmin hmax]
    rfl
  · obtain ⟨e, he⟩ := frmDec_fails hbad
    rw [exec_frmDec hlen, he]
    rfl

/-- Settles O24: the command has no check, and the 28 bytes of `jaccEnc` behind their length are the response. -/
theorem joinAcceptEncodeAnswers : Obligations.JoinAcceptEncodeAnswers := by
  intro j n a settings rxDelay s
  exact reply_eq (varBytes (jaccEnc j n a settings rxDelay)) s

end Sys2Proof.Machine
end

section
/-! PROOFS. The frame counter (spec/45_frame_counter.md R200, R201, R203): the two halves of a candidate as one number,
the first candidate that validates, and the three classes. -/

namespace Sys2Proof.Machine

/-- R200: a high word `hi` with the fragment `lo` below it is the number `hi * 2^16 + lo`. -/
theorem highWord_append_toNat (hi lo : U16) : (hi ++ lo : U32).toNat = hi.toNat * 65536 + lo.toNat := by
  rw [BitVec.toNat_append, ← Nat.shiftLeft_add_eq_or_of_lt lo.isLt, Nat.shiftLeft_eq]

/-- R200: the high word of a counter is its number divided by 2^16. -/
theorem highWord_toNat (v : U32) : (v.extractLsb' 16 16 : U16).toNat = v.toNat / 65536 := by
  have hv : v.toNat < 65536 * 65536 := v.isLt
  rw [BitVec.extractLsb'_toNat, Nat.shiftRight_eq_div_pow]
  exact Nat.mod_eq_of_lt (Nat.div_lt_of_lt_mul hv)

/-- Settles O25: (a) and (b) are read as numbers half by half, (b) with the sum of the high word in 16 bits; the
response is that of `reply`, for either value of the flag. -/
theorem counterCandidatesAnswer : Obligations.CounterCandidatesAnswer := by
  intro wire16 stored resetAllowed s
  refine ⟨stored.extractLsb' 16 16 ++ wire16, (stored.extractLsb' 16 16 + 1) ++ wire16, ?_, ?_, rfl, ?_⟩
  · rw [highWord_append_toNat, highWord_toNat]
  · rw [highWord_append_toNat, BitVec.toNat_add, highWord_toNat]
    rfl
  · cases resetAllowed <;> exact reply_eq _ s

/-- R201: the accepted counter validates, and no candidate before it does. -/
theorem accept_eq_some_iff {cands : List U32} {key : Block} {dir : Dir} {addr : Bytes4} {msg : List Byte}
    {tag : Bytes4} {acc : U32} : accept cands key dir addr msg tag = some acc ↔
      ∃ before after, cands = before ++ acc :: after ∧ micData key acc dir addr msg = tag ∧
        ∀ c ∈ before, micData key c dir addr msg ≠ tag := by
  simp only [accept, List.find?_eq_some_iff_append, decide_eq_true_eq, Bool.not_eq_true', decide_eq_false_iff_not]
  constructor
  · rintro ⟨hacc, before, after, hsplit, hbefore⟩
    exact ⟨before, after, hsplit, hacc, hbefore⟩
  · rintro ⟨before, after, hsplit, hacc, hbefore⟩
    exact ⟨hacc, before, after, hsplit, hbefore⟩

/-- R201: no counter is accepted exactly when no candidate validates. -/
theorem accept_eq_none_iff {cands : List U32} {key : Block} {dir : Dir} {addr : Bytes4} {msg : List Byte}
    {tag : Bytes4} : accept cands key dir addr msg tag = none ↔ ∀ c ∈ cands, micData key c dir addr msg ≠ tag := by
  simp only [accept, List.find?_eq_none, decide_eq_true_eq, ne_eq]

/-- Settles O26: `accept` is the search of the list for the first candidate whose tag is the frame's, and both answers
of the search are characterised. -/
theorem firstMatchIsAccepted : Obligations.FirstMatchIsAccepted := by
  intro cands key dir addr msg tag
  exact ⟨fun acc => accept_eq_some_iff, accept_eq_none_iff⟩

/-- R203: a counter below the stored one. -/
theorem fcntClass_of_lt {acc stored : U32} (h : acc.toNat < stored.toNat) : fcntClass acc stored = .stale :=
  if_pos (BitVec.lt_def.mpr h)

/-- R203: the stored counter itself, where it is not 0. -/
theorem fcntClass_self {stored : U32} (h : stored.toNat ≠ 0) : fcntClass stored stored = .replay := by
  have hne : stored ≠ 0 := fun h0 => h (congrArg BitVec.toNat h0)
  rw [fcntClass, if_neg (BitVec.lt_irrefl stored), if_pos ⟨rfl, hne⟩]

/-- R203: a counter above the stored one. -/
theorem fcntClass_of_gt {acc stored : U32} (h : stored.toNat < acc.toNat) : fcntClass acc stored = .fresh := by
  have hlt : ¬ acc < stored := fun hlt => lt_asymm h (BitVec.lt_def.mp hlt)
  have heq : ¬ (acc = stored ∧ stored ≠ 0) := fun ⟨heq, _⟩ => h.ne' (congrArg BitVec.toNat heq)
  rw [fcntClass, if_neg hlt, if_neg heq]

/-- R203: `acc == stored == 0` is FRESH, not REPLAY. -/
theorem fcntClass_zero : fcntClass 0 0 = .fresh := rfl

/-- R61, R203: FCNT.CLASS answers the class. -/
theorem exec_fcntClass {acc stored : U32} {c : FreshClass} (h : fcntClass acc stored = c) (s : State) :
    exec (.fcntClass acc stored) s = .next { s with response := [0x00, c.code] } := by
  subst h
  exact reply_eq _ s

/-- Settles O27: each comparison of the two numbers gives its class, which is the answer. -/
theorem freshnessClassAnswers : Obligations.FreshnessClassAnswers := by
  intro acc stored s
  refine ⟨fun hlt => exec_fcntClass (fcntClass_of_lt hlt) s, ?_, ?_⟩
  · rintro rfl hne
    exact exec_fcntClass (fcntClass_self hne) s
  · rintro (hgt | ⟨rfl, rfl⟩)
    · exact exec_fcntClass (fcntClass_of_gt hgt) s
    · exact exec_fcntClass fcntClass_zero s

end Sys2Proof.Machine
end

section
/-! PROOFS. SESS.LOAD and CFG.SET (spec/46_protocol_engine.md R250, R251): the two bits of a configuration byte, read as
a number. -/

namespace Sys2Proof.Machine

/-- Settles O29: the replaced record, the valid bit and the empty response are the three writes of its meaning. -/
theorem sessionLoadReplacesTheSession : Obligations.SessionLoadReplacesTheSession :=
  fun _ _ _ _ _ _ => rfl

/-- R64, R251: no bit of 7:2 is set exactly in the numbers below 4. -/
theorem reservedBits_eq_zero_iff : ∀ cfg : Byte, cfg &&& 0xFC = 0 ↔ cfg.toNat < 4 := by decide +kernel

/-- R251: bit 0, JOIN_EN. -/
theorem getLsbD_zero_eq_decide (cfg : Byte) : cfg.getLsbD 0 = decide (cfg.toNat % 2 = 1) := by
  rw [BitVec.getLsbD, Nat.testBit_zero]

/-- R251: bit 1, DELIVER_EN, of a value below 4. -/
theorem getLsbD_one_eq_decide {cfg : Byte} (h : cfg.toNat < 4) : cfg.getLsbD 1 = decide (2 ≤ cfg.toNat) := by
  rw [BitVec.getLsbD, Nat.testBit_eq_decide_div_mod_eq, decide_eq_decide]
  omega

/-- R64, R251: the check of CFG.SET on the number. -/
theorem checkCfg_eq (cfg : Byte) : checkCfg cfg = if cfg.toNat < 4 then none else some .badCfg := by
  simp only [checkCfg, need, beq_iff_eq, reservedBits_eq_zero_iff]

/-- Settles O30: below 4 the check passes and the bits are those of the number; from 4 on it names the operand. -/
theorem configSetWritesBothBits : Obligations.ConfigSetWritesBothBits := by
  intro cfg s
  have hexec : exec (.cfgSet cfg) s =
      require (checkCfg cfg) (.next ((s.withEnables (cfg.getLsbD 0) (cfg.getLsbD 1)).respond [])) := rfl
  refine ⟨fun hlt => ?_, fun hge => ?_⟩
  · rw [hexec, checkCfg_eq, if_pos hlt, require_none, getLsbD_zero_eq_decide, getLsbD_one_eq_decide hlt]
    rfl
  · rw [hexec, checkCfg_eq, if_neg (not_lt.mpr hge), require_some]

end Sys2Proof.Machine
end

section
/-! PROOFS. The join branch (spec/46_protocol_engine.md R222 to R229). A frame-type instruction is the reception of its
frame, whose fields the outer decoder reads back; the 23 bytes given to RX.FRAME are that same frame. -/

namespace Sys2Proof.Machine

/-- R220: the frame of a legal payload, received at a legal signal strength, is dispatched with its own fields. -/
theorem runFrame_frmEnc (t : FrameType) {payload : List Byte} (tag : Bytes4) {rssi : U16} (ra : Bool) (s : State)
    (hmin : 7 ≤ payload.length) (hmax : payload.length ≤ 59) (hrssi : rssi.toInt ≤ 135) :
    runFrame (frmEnc t.toByte payload tag) rssi ra s =
      settle (dispatchFrame ⟨t, payload, tag⟩ rssi ra s) s := by
  rw [runFrame, checkRssi_eq_none.mpr hrssi, require_none, receive, frmDec_frmEnc t tag hmin hmax]

/-- R73, R176: the join request with the fields given. -/
theorem jreqDec_toList (a e : Bytes8) (n : Bytes2) :
    jreqDec (a.rev.toList ++ e.rev.toList ++ n.rev.toList) = .ok ⟨a, e, n⟩ := rfl

/-- R222 to R225: a join request of the paired identity with the right tag passes every check. -/
theorem joinPath_of_valid {f : Frame} {s : State} {n : Bytes2}
    (hpayload : f.payload = s.ident.appEui.rev.toList ++ s.ident.devEui.rev.toList ++ n.rev.toList)
    (htag : micPlain s.ident.rootKey (FrameType.joinRequest.toByte :: f.payload) = f.tag) :
    joinPath f s = .ok (completeJoin n s) := by
  have hdec : jreqDec f.payload = .ok ⟨s.ident.appEui, s.ident.devEui, n⟩ := by rw [hpayload, jreqDec_toList]
  have hident : ¬ (s.ident.appEui ≠ s.ident.appEui ∨ s.ident.devEui ≠ s.ident.devEui) := by simp
  simp only [joinPath, hdec, if_neg hident, if_neg (not_not.mpr htag)]

/-- R21: the state after a draw. -/
theorem State.afterDraw_eq (s : State) :
    s.afterDraw = { s with
      draws := s.draws.tail, drawCount := if s.draws = [] then s.drawCount + 1 else s.drawCount } := by
  obtain ⟨d, ds, hdraws, _, hafter⟩ | ⟨hdraws, _, hafter⟩ := s.afterDraw_cases
  · simp [hafter, hdraws]
  · simp [hafter, hdraws]

theorem joinAcceptPlain_length (root : Block) (d : Bytes3) (addr : Bytes4) :
    (joinAcceptPlain root d addr).length = 32 := rfl

/-- R228: the type byte and two blocks. -/
theorem joinAcceptFrame_length (root : Block) (d : Bytes3) (addr : Bytes4) :
    (joinAcceptFrame root d addr).length = 33 := by
  simp [joinAcceptFrame]

/-- R226 to R229: the whole state that a completed join leaves. -/
theorem completeJoin_eq (n : Bytes2) (s : State) :
    completeJoin n s =
      let record := joinedSession s.ident.rootKey s.nextDraw n s.session
      { s with
        session := record
        sessionValid := true
        draws := s.draws.tail
        drawCount := if s.draws = [] then s.drawCount + 1 else s.drawCount
        events := s.events ++
          [.emit (joinAcceptFrame s.ident.rootKey s.nextDraw s.session.devAddr) 33 5000, .save record, .joined] } := by
  rw [← joinAcceptFrame_length s.ident.rootKey s.nextDraw s.session.devAddr, completeJoin, State.afterDraw_eq]
  rfl

/-- R40, R220: RX.FRAME on a string that fits its operand is the reception of that string. -/
theorem exec_rxFrame {raw : List Byte} (h : raw.length ≤ 255) (rssi : U16) (ra : Bool) (s : State) :
    exec (.rxFrame raw rssi ra) s = runFrame raw rssi ra s := by
  change require (checkRaw raw) _ = _
  rw [checkRaw_eq_none.mpr h, require_none]

/-- Settles O37: the request passes the checks of the join branch, whose state is that of `completeJoin_eq`; RX.FRAME
is given the same frame. -/
theorem joinSucceeds : Obligations.JoinSucceeds := by
  intro n rssi ra s hrssi hen root payload tag d key record t
  have hlen : payload.length = 18 := rfl
  have hpath : joinPath ⟨.joinRequest, payload, tag⟩ s = .ok (completeJoin n s) := joinPath_of_valid rfl rfl
  have hrun : runFrame (frmEnc FrameType.joinRequest.toByte payload tag) rssi ra s = .next t := by
    rw [runFrame_frmEnc .joinRequest tag ra s (by omega) (by omega) hrssi]
    change settle (if s.joinEn then joinPath ⟨.joinRequest, payload, tag⟩ s else .error .joinNotEnabled) s = _
    rw [if_pos hen, hpath, settle_ok, completeJoin_eq]
    rfl
  have hraw : (frmEnc FrameType.joinRequest.toByte payload tag).length ≤ 255 := by rw [frmEnc_length]; omega
  exact ⟨hrun, (exec_rxFrame hraw rssi ra s).trans hrun⟩

/-- Settles O38: the forward transform undoes the inverse one on each block, and the two halves of the 32 bytes make
them up again. -/
theorem joinAcceptIsRecoverable : Obligations.JoinAcceptIsRecoverable := by
  intro root d addr
  have hlen := joinAcceptPlain_length root d addr
  refine ⟨aesDec root (Block.ofBytes (slice (joinAcceptPlain root d addr) 0 16)),
    aesDec root (Block.ofBytes (slice (joinAcceptPlain root d addr) 16 32)), rfl, ?_⟩
  intro body
  have hplain : joinAcceptPlain root d addr = body ++ (cmac root (0x20 :: body)).toList.take 4 := rfl
  rw [aesEnc_aesDec, aesEnc_aesDec, Block.toList_ofBytes (by simp [hlen]), Block.toList_ofBytes (by simp [hlen]),
    ← hplain]
  exact List.take_append_drop 16 _

end Sys2Proof.Machine
end

section
/-! PROOFS. The data branch (spec/46_protocol_engine.md R231 to R243) from the accepted counter on: the counter reset,
the three freshness classes, and the whole state that a frame leaves which is not stale. -/

namespace Sys2Proof.Machine

/-! R230 to R235: up to the freshness check. -/

/-- R173: a payload that decodes holds at least the MAC header. -/
theorem macDec_ok_length {p : List Byte} {m : MacPayload} (h : macDec p = .ok m) : 7 ≤ p.length := by
  obtain ⟨_, _, _, _, _, _, _, rest, rfl, _, _⟩ := macDec_ok h
  simp

/-- R221: every data type is dispatched to the data branch. -/
theorem dispatchFrame_of_isData {f : Frame} (h : f.type.isData = true) (rssi : U16) (ra : Bool) (s : State) :
    dispatchFrame f rssi ra s = dataPath f rssi ra s := by
  unfold dispatchFrame
  cases hf : f.type with
  | joinRequest | joinAccept => rw [hf] at h; exact absurd h Bool.false_ne_true
  | unconfirmedUp | unconfirmedDown | confirmedUp | confirmedDown => rfl

/-- R231 to R233: once a candidate is accepted, only the freshness check can still drop the frame. -/
theorem dataPath_of_accepted {f : Frame} {ra : Bool} {s : State} {m : MacPayload} {acc : U32}
    (hvalid : s.sessionValid = true) (hdec : macDec f.payload = .ok m) (haddr : m.addr = s.session.devAddr)
    (hacc : accept (fcntCand m.fcnt16 s.session.fcntUp ra) s.session.nwkSKey f.type.dir s.session.devAddr
      (f.type.toByte :: f.payload) f.tag = some acc) (rssi : U16) :
    dataPath f rssi ra s =
      (freshness acc (forceReset acc ra (s, Conditions.start))).map (finishData f.type m acc rssi) := by
  simp only [dataPath, hvalid, hdec, dataSteps, haddr, hacc, Bool.not_true, Bool.false_eq_true, ne_eq,
    not_true_eq_false, if_false]
  cases freshness acc (forceReset acc ra (s, Conditions.start)) <;> rfl

/-- R234: the counter that the reset rule leaves in the session. -/
def storedAfterReset (acc : U32) (ra : Bool) (record : Session) : U32 :=
  if resetForced acc ra then 0 else record.fcntUp

/-- R234: the reset rule on the state in which a reception starts. -/
theorem forceReset_start (acc : U32) (ra : Bool) (s : State) :
    forceReset acc ra (s, Conditions.start) =
      (s.withFcntUp (storedAfterReset acc ra s.session), { Conditions.start with dirty := resetForced acc ra }) := by
  cases h : resetForced acc ra with
  | true => rw [forceReset_of h, storedAfterReset, if_pos h]
  | false => rw [forceReset_of_not h, storedAfterReset, h]; rfl

/-- R235: the conditions and the counter of a frame that is a replay. The reset rule has not acted: it would have left
0. -/
theorem freshness_forceReset_of_replay {acc : U32} {ra : Bool} {s : State}
    (heq : acc = storedAfterReset acc ra s.session) (hne : storedAfterReset acc ra s.session ≠ 0) :
    freshness acc (forceReset acc ra (s, Conditions.start)) = .ok (s, { Conditions.start with replay := true }) := by
  have hforced : resetForced acc ra = false := by
    by_contra h
    rw [Bool.not_eq_false] at h
    exact hne (if_pos h)
  have hup : storedAfterReset acc ra s.session = s.session.fcntUp := by rw [storedAfterReset, hforced]; rfl
  rw [hup] at heq hne
  subst heq
  have hclass : fcntClass s.session.fcntUp s.session.fcntUp = .replay :=
    fcntClass_self fun h => hne (BitVec.eq_of_toNat_eq h)
  simp only [forceReset_of_not hforced, freshness, hclass]

/-- R235: the conditions and the counter of a fresh frame, after the reset rule or without it. -/
theorem freshness_forceReset_of_fresh {acc : U32} {ra : Bool} {s : State}
    (hclass : fcntClass acc (storedAfterReset acc ra s.session) = .fresh) :
    freshness acc (forceReset acc ra (s, Conditions.start)) =
      .ok (s.withFcntUp acc, { Conditions.start with dirty := true }) := by
  simp only [forceReset_start, freshness, State.withFcntUp_session, hclass]
  rfl

/-- R235: a frame below the stored counter. -/
theorem freshness_forceReset_of_stale {acc : U32} {ra : Bool} {s : State}
    (hclass : fcntClass acc (storedAfterReset acc ra s.session) = .stale) :
    freshness acc (forceReset acc ra (s, Conditions.start)) = .error .stale := by
  simp only [forceReset_start, freshness, State.withFcntUp_session, hclass]

/-! R237 to R243: after the freshness check. -/

/-- R237: the application payload as plaintext. -/
def plaintext (m : MacPayload) (acc : U32) (dir : Dir) (record : Session) : List Byte :=
  if m.app = [] then [] else ctr m.app acc record.devAddr record.appSKey dir

theorem decryptApp_eq (m : MacPayload) (acc : U32) (dir : Dir) (record : Session) :
    decryptApp m acc dir record = { m with app := plaintext m acc dir record } := by
  unfold decryptApp plaintext
  by_cases h : m.app = []
  · rw [if_neg (by simp [h]), if_pos h, ← h]
  · rw [if_pos (List.length_pos_iff.mpr h), if_neg h]

theorem startsLinkCheck_eq (B : List Byte) : startsLinkCheck B = decide (B.head? = some 0x02) := by
  cases B <;> simp [startsLinkCheck, linkCheckCid, beq_eq_decide]

/-- R238: a link check in the options, or in the plaintext `plain` of port 0. -/
def hasLinkCheck (m : MacPayload) (plain : List Byte) : Bool :=
  decide (m.opts.head? = some 0x02) || (decide (m.port = some 0x00) && decide (plain.head? = some 0x02))

theorem linkCheckSeen_eq (m : MacPayload) (plain : List Byte) :
    linkCheckSeen { m with app := plain } = hasLinkCheck m plain := by
  simp only [linkCheckSeen, startsLinkCheck_eq, hasLinkCheck, beq_eq_decide]

/-- R81: a response without the link-check option has 12 bytes, with it 15. -/
theorem responseFrame_length (record : Session) (ack linkcheck : Bool) (rssi : U16) :
    (responseFrame record ack linkcheck rssi).length = if linkcheck then 15 else 12 := by
  cases linkcheck <;> rfl

/-- R240, R241: the EMIT of a response, where one is due, with the session after it. -/
def answerEvents (type : FrameType) (linkcheck : Bool) (rssi : U16) (record : Session) : List Event :=
  if decide (type = .confirmedUp) || linkcheck then
    [.emit (responseFrame record (decide (type = .confirmedUp)) linkcheck rssi) (if linkcheck then 15 else 12) 1000]
  else []

/-- R240: the session after the answer. -/
def answeredSession (type : FrameType) (linkcheck : Bool) (record : Session) : Session :=
  { record with
    fcntDown := if decide (type = .confirmedUp) || linkcheck then record.fcntDown + 1 else record.fcntDown }

/-- R237 to R243: the whole state that a data frame leaves after the freshness check. -/
theorem finishData_eq_update (type : FrameType) (m : MacPayload) (acc : U32) (rssi : U16) (t : State) (c : Conditions)
    {plain : List Byte} {linkcheck : Bool} {record : Session}
    (hplain : plaintext m acc type.dir t.session = plain) (hlinkcheck : hasLinkCheck m plain = linkcheck)
    (hrecord : answeredSession type linkcheck t.session = record) :
    finishData type m acc rssi (t, c) =
      { t with
        session := record
        events := t.events ++ answerEvents type linkcheck rssi record ++
          (if c.dirty || (decide (type = .confirmedUp) || linkcheck) then [.save record] else []) ++
          deliverEvents { m with app := plain } (t, c) } := by
  subst hplain hlinkcheck hrecord
  simp only [finishData_eq, decryptApp_eq, linkCheckSeen_eq, respondNeeded, emitFrame, responseFrame_length,
    beq_eq_decide, answeredSession, answerEvents, List.append_assoc]
  cases decide (type = .confirmedUp) || hasLinkCheck m (plaintext m acc type.dir t.session) <;> rfl

/-- R243: a replay is not delivered. -/
theorem deliverEvents_of_replay (m : MacPayload) (t : State) {c : Conditions} (h : c.replay = true) :
    deliverEvents m (t, c) = [] := by
  unfold deliverEvents
  cases m.port <;> simp [h]

/-- R243: nothing is delivered without a port. -/
theorem deliverEvents_of_no_port {m : MacPayload} (hport : m.port = none) (sc : State × Conditions) :
    deliverEvents m sc = [] := by
  simp only [deliverEvents, hport]

/-- R243: what is delivered on a port, of a frame that is no replay. -/
theorem deliverEvents_of_port {m : MacPayload} {port : Byte} (hport : m.port = some port) (t : State)
    {c : Conditions} (h : c.replay = false) :
    deliverEvents m (t, c) =
      if port ≠ 0 ∧ t.deliverEn = true then [.deliver port m.app m.app.length] else [] := by
  simp [deliverEvents, hport, h]

/-- Settles O39: with a candidate accepted, the outcome is that of the freshness check, which goes by how the counter
compares with the stored one; what follows it is `finishData_eq_update`, under the conditions of the class. -/
theorem dataBranchOutcomes : Obligations.DataBranchOutcomes := by
  intro t payload tag rssi ra s m acc hdata hrssi hmax hvalid hdec haddr hacc
    forced stored plain linkcheck respond down answerTo
  have hexec : exec (frameInstr t payload tag rssi ra) s =
      settle ((freshness acc (forceReset acc ra (s, Conditions.start))).map (finishData t m acc rssi)) s := by
    rw [exec_frameInstr, runFrame_frmEnc t tag ra s (macDec_ok_length hdec) hmax hrssi, dispatchFrame_of_isData hdata,
      dataPath_of_accepted (f := ⟨t, payload, tag⟩) hvalid hdec haddr hacc]
  rw [hexec]
  refine ⟨?stale, ?replay, ?fresh⟩
  case stale =>
    intro hlt
    rw [freshness_forceReset_of_stale (fcntClass_of_lt hlt)]
    rfl
  case replay =>
    intro heq hne record
    have hfinish := finishData_eq_update t m acc rssi s { Conditions.start with replay := true }
      (plain := plain) (linkcheck := linkcheck) (record := record) rfl rfl rfl
    rw [freshness_forceReset_of_replay heq hne, Except.map, settle_ok, hfinish, deliverEvents_of_replay _ _ rfl,
      List.append_nil]
    rfl
  case fresh =>
    intro hfresh record deliver
    have hclass : fcntClass acc stored = .fresh := by
      obtain hgt | ⟨hacc0, hstored0⟩ := hfresh
      · exact fcntClass_of_gt hgt
      · rw [hacc0, hstored0, fcntClass_zero]
    have hdeliver : deliverEvents { m with app := plain }
        (s.withFcntUp acc, { Conditions.start with dirty := true }) = deliver := by
      cases hport : m.port with
      | none =>
        rw [deliverEvents_of_no_port rfl]
        simp only [deliver, hport]
      | some port =>
        rw [deliverEvents_of_port (port := port) rfl _ rfl]
        simp only [deliver, hport]
        rfl
    have hfinish := finishData_eq_update t m acc rssi (s.withFcntUp acc) { Conditions.start with dirty := true }
      (plain := plain) (linkcheck := linkcheck) (record := record) rfl rfl rfl
    rw [freshness_forceReset_of_fresh hclass, Except.map, settle_ok, hfinish, hdeliver]
    rfl

end Sys2Proof.Machine
end

section
/-! PROOFS. The command encoding (spec/30_encoding.md R60 to R65), both ways. A decoder of operands is a chain of
readers; the encoder lays the operands down in the same order, so each reader of the chain is met by the bytes written
for its operand. -/

namespace Sys2Proof

open Machine

@[simp] theorem ok_bind {ε α β : Type} (a : α) (f : α → Except ε β) : (Except.ok a >>= f) = f a := rfl

/-- R60 to R64: a well-formed command is read back from its bytes, whatever stands behind them. The first
case holds the commands without an operand of variable length; in the others that operand fits its length byte. -/
theorem decodeStream_encode {i : Instr} (hcmd : i.isCommand = true) (hwf : i.issue = none) (rest : List Byte) :
    decodeStream (encode i ++ rest) = .ok (i, rest) := by
  cases i with
  | aesEnc | aesDec | kdfDerive | jaccEnc | fcntCand | fcntClass | sessLoad | cfgSet =>
    simp [encode, decodeStream, decodeOperands, decodeAesEnc, decodeAesDec, decodeKdfDerive, decodeJaccEnc,
      decodeFcntCand, decodeFcntClass, decodeSessLoad, decodeCfgSet]
  | cmacTag _ msg | micPlain _ msg =>
    have hmsg : msg.length ≤ 255 := checkMsg_eq_none.mp hwf
    simp [encode, decodeStream, decodeOperands, decodeCmacTag, decodeMicPlain, readVar_varBytes hmsg]
  | micData _ _ _ _ msg | micCheck _ _ _ _ _ msg =>
    have hmsg : msg.length ≤ 239 := (checkMicData_eq_none.mp hwf).2
    simp [encode, decodeStream, decodeOperands, decodeMicData, decodeMicCheck,
      readVar_varBytes (hmsg.trans (by decide))]
  | ctrApply _ _ _ _ data =>
    have hdata : data.length ≤ 255 := (checkCtr_eq_none.mp hwf).2
    simp [encode, decodeStream, decodeOperands, decodeCtrApply, readVar_varBytes hdata]
  | frmDec raw =>
    have hraw : raw.length ≤ 255 := checkRaw_eq_none.mp hwf
    simp [encode, decodeStream, decodeOperands, decodeFrmDec, readVar_varBytes hraw]
  | frmEnc _ payload _ =>
    have hpayload : payload.length ≤ 59 := (checkFrmEnc_eq_none.mp hwf).2
    simp [encode, decodeStream, decodeOperands, decodeFrmEnc, readVar_varBytes (hpayload.trans (by decide))]
  | macDec payload | jreqDec payload =>
    have hpayload : payload.length ≤ 59 := checkPayload_eq_none.mp hwf
    simp [encode, decodeStream, decodeOperands, decodeMacDec, decodeJreqDec,
      readVar_varBytes (hpayload.trans (by decide))]
  | macEnc _ _ _ opts hasPort port app =>
    obtain ⟨_, hopts, hportless, hsize⟩ := checkMacEnc_eq_none.mp hwf
    have happ : app.length ≤ 255 := by
      obtain rfl | ⟨_, rfl⟩ := hportless
      · simp only [if_true] at hsize; omega
      · simp
    simp [encode, decodeStream, decodeOperands, decodeMacEnc, readVar_varBytes (hopts.trans (by decide)),
      readVar_varBytes happ]
  | rxFrame raw _ _ =>
    have hraw : raw.length ≤ 255 := (checkRx_eq_none.mp hwf).1
    simp [encode, decodeStream, decodeOperands, decodeRxFrame, readVar_varBytes hraw]
  | _ => exact absurd hcmd Bool.false_ne_true

/-- A term is well-formed when it has no issue. -/
theorem wellFormed_iff {i : Instr} : i.wellFormed = true ↔ i.issue = none := Option.isNone_iff_eq_none

/-- Settles O57: `decodeStream_encode` with nothing behind the command. -/
theorem commandIsReadBack : Obligations.CommandIsReadBack := by
  intro i hcmd hwf
  have hstream := decodeStream_encode hcmd (wellFormed_iff.mp hwf) []
  rw [List.append_nil] at hstream
  rw [decode, hstream]

/-- R60: a decoder of the operands that stand behind the bytes `pre`. What it reads is a command whose encoding is those
bytes and the ones that it has taken. -/
def ReadsBehind (pre : List Byte) (dec : List Byte → Except DecodeError (Instr × List Byte)) : Prop :=
  ∀ bs i rest, dec bs = .ok (i, rest) → pre ++ bs = encode i ++ rest ∧ i.isCommand = true

/-- The operands have all been read. -/
theorem ReadsBehind.done {pre : List Byte} {i : Instr} (henc : encode i = pre) (hcmd : i.isCommand = true) :
    ReadsBehind pre (fun bs => .ok (i, bs)) := by
  intro bs j rest h
  cases h
  exact ⟨henc ▸ rfl, hcmd⟩

/-- One operand is read and the others stand behind it. -/
theorem ReadsBehind.read {α : Type} {pre : List Byte} {read : List Byte → Except DecodeError (α × List Byte)}
    {write : α → List Byte} {next : α × List Byte → Except DecodeError (Instr × List Byte)}
    (hread : ∀ {bs r v}, read bs = .ok (v, r) → bs = write v ++ r)
    (hnext : ∀ v, ReadsBehind (pre ++ write v) (fun bs => next (v, bs))) :
    ReadsBehind pre (fun bs => read bs >>= next) := by
  intro bs i rest h
  obtain ⟨⟨v, r⟩, hv, h⟩ := bind_ok h
  rw [hread hv, ← List.append_assoc]
  exact hnext v r i rest h

/-- One entry of the opcode map. -/
theorem ReadsBehind.entry {op op' : Byte} {dec dec' : List Byte → Except DecodeError (Instr × List Byte)}
    (h : ReadsBehind [op'] dec) (h' : ReadsBehind [op] dec') :
    ReadsBehind [op] (fun bs => if op = op' then dec bs else dec' bs) := by
  by_cases hop : op = op'
  · subst hop
    simpa only [if_true] using h
  · simpa only [if_neg hop] using h'

/-- R62, R65: an opcode that is not in the map. -/
theorem ReadsBehind.unknown (op : Byte) : ReadsBehind [op] (fun _ => .error (.unknownOpcode op)) :=
  fun _ _ _ h => nomatch h

/-- R62, R64: the opcode map, each entry with the readers of its operands in their order. -/
theorem readsBehind_decodeOperands (op : Byte) : ReadsBehind [op] (decodeOperands op) :=
  .entry (.read readK16_ok fun _ => .read readK16_ok fun _ => .done rfl rfl) <|
  .entry (.read readK16_ok fun _ => .read readK16_ok fun _ => .done rfl rfl) <|
  .entry (.read readK16_ok fun _ => .read readVar_ok fun _ => .done rfl rfl) <|
  .entry (.read readK16_ok fun _ => .read readVar_ok fun _ => .done rfl rfl) <|
  .entry (.read readK16_ok fun _ => .read readU32_ok fun _ => .read readU8_ok fun _ => .read readB4_ok fun _ =>
    .read readVar_ok fun _ => .done rfl rfl) <|
  .entry (.read readK16_ok fun _ => .read readU32_ok fun _ => .read readU8_ok fun _ => .read readB4_ok fun _ =>
    .read readB4_ok fun _ => .read readVar_ok fun _ => .done rfl rfl) <|
  .entry (.read readK16_ok fun _ => .read readU32_ok fun _ => .read readU8_ok fun _ => .read readB4_ok fun _ =>
    .read readVar_ok fun _ => .done rfl rfl) <|
  .entry (.read readU8_ok fun _ => .read readK16_ok fun _ => .read readB3_ok fun _ => .read readB3_ok fun _ =>
    .read readB2_ok fun _ => .done rfl rfl) <|
  .entry (.read readVar_ok fun _ => .done rfl rfl) <|
  .entry (.read readU8_ok fun _ => .read readVar_ok fun _ => .read readB4_ok fun _ => .done rfl rfl) <|
  .entry (.read readVar_ok fun _ => .done rfl rfl) <|
  .entry (.read readB4_ok fun _ => .read readU8_ok fun _ => .read readU16_ok fun _ => .read readVar_ok fun _ =>
    .read readFlag_ok fun _ => .read readU8_ok fun _ => .read readVar_ok fun _ => .done rfl rfl) <|
  .entry (.read readVar_ok fun _ => .done rfl rfl) <|
  .entry (.read readB3_ok fun _ => .read readB3_ok fun _ => .read readB4_ok fun _ => .read readU8_ok fun _ =>
    .read readU8_ok fun _ => .done rfl rfl) <|
  .entry (.read readU16_ok fun _ => .read readU32_ok fun _ => .read readFlag_ok fun _ => .done rfl rfl) <|
  .entry (.read readU32_ok fun _ => .read readU32_ok fun _ => .done rfl rfl) <|
  .entry (.read readVar_ok fun _ => .read readU16_ok fun _ => .read readFlag_ok fun _ => .done rfl rfl) <|
  .entry (.read readB4_ok fun _ => .read readK16_ok fun _ => .read readK16_ok fun _ => .read readU32_ok fun _ =>
    .read readU32_ok fun _ => .done rfl rfl) <|
  .entry (.read readU8_ok fun _ => .done rfl rfl) <|
  .unknown op

/-- R60, R65: a string that decodes. -/
theorem decode_ok {bytes : List Byte} {i : Instr} (h : decode bytes = .ok i) :
    bytes = encode i ∧ i.isCommand = true := by
  unfold decode at h
  split at h
  · rename_i j hstream
    cases h
    cases bytes with
    | nil => cases hstream
    | cons op bs => simpa using readsBehind_decodeOperands op bs i [] hstream
  · cases h
  · cases h

/-- Settles O58: the string is what the readers of `readsBehind_decodeOperands` have taken. -/
theorem commandBytesAreWrittenBack : Obligations.CommandBytesAreWrittenBack := by
  intro bytes i h
  obtain ⟨rfl, hcmd⟩ := decode_ok h
  exact ⟨rfl, hcmd⟩

/-- Settles O60: each word is run through the decoder. -/
theorem writtenOutWordsDecode : Obligations.WrittenOutWordsDecode := by
  unfold Obligations.WrittenOutWordsDecode
  decide

end Sys2Proof
end

section
/-! PROOFS. What an instruction does to a state, by kind (spec/30_encoding.md R61, R62): a computational command only
answers, SESS.LOAD and CFG.SET write their own fields, and a reception is a drop or what its branch leaves. -/

namespace Sys2Proof.Machine

/-- R266: two checks in a row are one. -/
theorem require_require (issue issue' : Option IllFormed) (k : Out) :
    require issue (require issue' k) = require (issue.or issue') k := by
  cases issue <;> rfl

/-- R220, R71: the instructions that receive a frame, RX.FRAME and the six frame types, each with the frame's bytes. -/
inductive Receives : Instr → List Byte → U16 → Bool → Prop
  | rxFrame (raw : List Byte) (rssi : U16) (ra : Bool) : Receives (.rxFrame raw rssi ra) raw rssi ra
  | frameType (t : FrameType) (payload : List Byte) (tag : Bytes4) (rssi : U16) (ra : Bool) :
      Receives (frameInstr t payload tag rssi ra) (frmEnc t.toByte payload tag) rssi ra

/-- R40, R220: RX.FRAME in any state, its two checks first. -/
theorem exec_rxFrame_eq (raw : List Byte) (rssi : U16) (ra : Bool) (s : State) :
    exec (.rxFrame raw rssi ra) s = require (checkRx raw rssi) (settle (receive raw rssi ra s) s) :=
  require_require (checkRaw raw) (checkRssi rssi) _

/-- R220: behind its checks, which do not look at the state, an instruction that receives settles the reception. -/
theorem Receives.exec_eq {i : Instr} {raw : List Byte} {rssi : U16} {ra : Bool} (h : Receives i raw rssi ra) :
    ∃ issue, ∀ s, exec i s = require issue (settle (receive raw rssi ra s) s) := by
  cases h with
  | rxFrame => exact ⟨_, exec_rxFrame_eq raw rssi ra⟩
  | frameType t payload tag => exact ⟨_, exec_frameInstr t payload tag rssi ra⟩

/-- R62, R71: the kinds of instructions. -/
theorem instr_kinds (i : Instr) :
    i.isComputational = true ∨ (∃ a k n up down, i = .sessLoad a k n up down) ∨ (∃ cfg, i = .cfgSet cfg) ∨
      ∃ raw rssi ra, Receives i raw rssi ra := by
  cases i with
  | sessLoad => exact .inr (.inl ⟨_, _, _, _, _, rfl⟩)
  | cfgSet => exact .inr (.inr (.inl ⟨_, rfl⟩))
  | rxFrame raw rssi ra => exact .inr (.inr (.inr ⟨_, _, _, .rxFrame raw rssi ra⟩))
  | typeJoinRequest p t rssi ra => exact .inr (.inr (.inr ⟨_, _, _, .frameType .joinRequest p t rssi ra⟩))
  | typeJoinAccept p t rssi ra => exact .inr (.inr (.inr ⟨_, _, _, .frameType .joinAccept p t rssi ra⟩))
  | typeUnconfirmedUp p t rssi ra => exact .inr (.inr (.inr ⟨_, _, _, .frameType .unconfirmedUp p t rssi ra⟩))
  | typeUnconfirmedDown p t rssi ra => exact .inr (.inr (.inr ⟨_, _, _, .frameType .unconfirmedDown p t rssi ra⟩))
  | typeConfirmedUp p t rssi ra => exact .inr (.inr (.inr ⟨_, _, _, .frameType .confirmedUp p t rssi ra⟩))
  | typeConfirmedDown p t rssi ra => exact .inr (.inr (.inr ⟨_, _, _, .frameType .confirmedDown p t rssi ra⟩))
  | _ => exact .inl rfl

/-- R251: CFG.SET in any state. -/
theorem exec_cfgSet (cfg : Byte) (s : State) :
    exec (.cfgSet cfg) s = require (checkCfg cfg)
      (.next { s with joinEn := cfg.getLsbD 0, deliverEn := cfg.getLsbD 1, response := [] }) := rfl

/-- R260: a reception that completes is a drop, or the state that its branch leaves. -/
theorem Receives.exec_next {i : Instr} {raw : List Byte} {rssi : U16} {ra : Bool} (hrec : Receives i raw rssi ra)
    {s u : State} (h : exec i s = .next u) :
    u = { s with response := [] } ∨ ∃ t, receive raw rssi ra s = .ok t ∧ u = { t with response := [] } := by
  obtain ⟨issue, hexec⟩ := hrec.exec_eq
  rw [hexec, require_eq_next] at h
  obtain ⟨_, h⟩ := h
  obtain ⟨t, ht, hsettle⟩ | ⟨cause, _, hsettle⟩ := settle_cases (receive raw rssi ra s) s
  · rw [hsettle] at h
    cases h
    exact .inr ⟨t, ht, rfl⟩
  · rw [hsettle] at h
    cases h
    exact .inl rfl

/-- What each kind leaves when it completes. -/
theorem exec_next {i : Instr} {s u : State} (h : exec i s = .next u) :
    (i.isComputational = true ∧ ∃ r, u = { s with response := r }) ∨
    (∃ a k n up down, i = .sessLoad a k n up down ∧
      u = { s with session := ⟨a, k, n, up, down⟩, sessionValid := true, response := [] }) ∨
    (∃ cfg, i = .cfgSet cfg ∧
      u = { s with joinEn := cfg.getLsbD 0, deliverEn := cfg.getLsbD 1, response := [] }) ∨
    (∃ raw rssi ra, Receives i raw rssi ra ∧
      (u = { s with response := [] } ∨ ∃ t, receive raw rssi ra s = .ok t ∧ u = { t with response := [] })) := by
  obtain hcomp | ⟨a, k, n, up, down, rfl⟩ | ⟨cfg, rfl⟩ | ⟨raw, rssi, ra, hrec⟩ := instr_kinds i
  · obtain ⟨r, hr⟩ | ⟨e, he⟩ := stateFree_exec hcomp
    · rw [hr s] at h
      cases h
      exact .inl ⟨hcomp, r, rfl⟩
    · rw [he s] at h
      cases h
  · cases h
    exact .inr (.inl ⟨a, k, n, up, down, rfl, rfl⟩)
  · rw [exec_cfgSet, require_eq_next] at h
    obtain ⟨_, h⟩ := h
    cases h
    exact .inr (.inr (.inl ⟨cfg, rfl, rfl⟩))
  · exact .inr (.inr (.inr ⟨raw, rssi, ra, hrec, hrec.exec_next h⟩))

end Sys2Proof.Machine
end

section
/-! PROOFS. What a reception that is not dropped leaves (spec/46_protocol_engine.md R245, and R226 to R229 for a join):
the whole next state, in the four rows of the data branch. -/

namespace Sys2Proof.Machine

/-- R81, R241: the number of bytes of a response, without the link-check option or with it. -/
def IsResponse (bytes : List Byte) (len : Nat) : Prop := bytes.length = len ∧ (len = 12 ∨ len = 15)

/-- R203: a replay is the stored counter itself, which is not 0. -/
theorem fcntClass_eq_replay {acc stored : U32} (h : fcntClass acc stored = .replay) : acc = stored ∧ stored ≠ 0 := by
  unfold fcntClass at h
  split_ifs at h with hlt heq
  exact heq

/-- R245: the rows of the data branch, for the accepted counter `acc` and the counter `stored` that the reset rule
leaves: what the state `t` after a frame has in its session and its events, which stood before it as in `s`. -/
inductive DataOutcome (s : State) (acc stored : U32) (t : State) : Prop
  | replaySilent (heq : acc = stored) (hne : stored ≠ 0) (hsession : t.session = s.session)
      (hevents : t.events = s.events)
  | replayAnswered (heq : acc = stored) (hne : stored ≠ 0)
      (hsession : t.session = { s.session with fcntDown := s.session.fcntDown + 1 })
      {bytes : List Byte} {len : Nat} (hresponse : IsResponse bytes len)
      (hevents : t.events = s.events ++ [.emit bytes len 1000, .save t.session])
  | freshSilent (hclass : fcntClass acc stored = .fresh) (hsession : t.session = { s.session with fcntUp := acc })
      {deliver : List Event} (hdeliver : dataTail deliver = true)
      (hevents : t.events = s.events ++ .save t.session :: deliver)
  | freshAnswered (hclass : fcntClass acc stored = .fresh)
      (hsession : t.session = { s.session with fcntUp := acc, fcntDown := s.session.fcntDown + 1 })
      {bytes : List Byte} {len : Nat} (hresponse : IsResponse bytes len)
      {deliver : List Event} (hdeliver : dataTail deliver = true)
      (hevents : t.events = s.events ++ .emit bytes len 1000 :: .save t.session :: deliver)

/-- R85, R173: with at most 59 bytes of MAC payload the application payload has at most 51 behind a port. -/
theorem macDec_ok_app_length {p : List Byte} {m : MacPayload} (h : macDec p = .ok m) (hmax : p.length ≤ 59) :
    m.app.length ≤ 51 := by
  obtain ⟨_, _, _, _, c, _, _, rest, rfl, _, rfl⟩ := macDec_ok h
  simp only [List.length_cons] at hmax
  simp only [List.length_tail, List.length_drop]
  omega

theorem plaintext_length (m : MacPayload) (acc : U32) (dir : Dir) (record : Session) :
    (plaintext m acc dir record).length = m.app.length := by
  unfold plaintext
  split
  · rename_i hnil
    rw [hnil]
  · exact ctr_length ..

/-- R243, R271: what is delivered may stand at the end of a legal sequence. -/
theorem dataTail_deliverEvents {m : MacPayload} (happ : m.app.length ≤ 51) (sc : State × Conditions) :
    dataTail (deliverEvents m sc) = true := by
  unfold deliverEvents
  split
  · split
    · rename_i hcond
      simpa [dataTail, goodDeliver, happ] using hcond.1
    · rfl
  · rfl

/-- R237 to R243: what follows the freshness check writes the session and the events only. The answer is left out, or
it is one EMIT and the downlink counter advances; a replay is not delivered. -/
theorem finishData_outcome (type : FrameType) {m : MacPayload} (happ : m.app.length ≤ 51) (acc : U32) (rssi : U16)
    (s : State) (c : Conditions) :
    let t := finishData type m acc rssi (s, c)
    t = { s with session := t.session, events := t.events } ∧
      ∃ deliver, dataTail deliver = true ∧ (c.replay = true → deliver = []) ∧
        ((t.session = s.session ∧ t.events = s.events ++ (if c.dirty then [.save t.session] else []) ++ deliver) ∨
         (t.session = { s.session with fcntDown := s.session.fcntDown + 1 } ∧ ∃ bytes len, IsResponse bytes len ∧
            t.events = s.events ++ .emit bytes len 1000 :: .save t.session :: deliver)) := by
  have ht := finishData_eq_update type m acc rssi s c rfl rfl rfl
  rw [ht]
  have hplain : (plaintext m acc type.dir s.session).length ≤ 51 := (plaintext_length ..).trans_le happ
  refine ⟨rfl, _, dataTail_deliverEvents (m := { m with app := plaintext m acc type.dir s.session }) hplain (s, c),
    deliverEvents_of_replay _ s, ?_⟩
  generalize hasLinkCheck m (plaintext m acc type.dir s.session) = linkcheck
  simp only [answeredSession, answerEvents]
  cases decide (type = .confirmedUp) || linkcheck with
  | false => exact .inl ⟨rfl, by simp⟩
  | true =>
    have hresponse : IsResponse (responseFrame { s.session with fcntDown := s.session.fcntDown + 1 }
        (decide (type = .confirmedUp)) linkcheck rssi) (if linkcheck then 15 else 12) :=
      ⟨responseFrame_length .., by cases linkcheck <;> simp⟩
    exact .inr ⟨rfl, _, _, hresponse, by simp⟩

/-- R231 to R245: a data frame that is not dropped is in one of the rows, by its freshness class and by whether it is
answered. -/
theorem dataPath_outcome {f : Frame} {rssi : U16} {ra : Bool} {s t : State} (h : dataPath f rssi ra s = .ok t)
    (hmax : f.payload.length ≤ 59) :
    ∃ m acc, s.sessionValid = true ∧ macDec f.payload = .ok m ∧ m.addr = s.session.devAddr ∧
      accept (fcntCand m.fcnt16 s.session.fcntUp ra) s.session.nwkSKey f.type.dir s.session.devAddr
        (f.type.toByte :: f.payload) f.tag = some acc ∧
      t = { s with session := t.session, events := t.events } ∧
      DataOutcome s acc (storedAfterReset acc ra s.session) t := by
  obtain ⟨m, acc, sc, hvalid, hdec, haddr, hacc, hsc, rfl⟩ := dataPath_ok h
  refine ⟨m, acc, hvalid, hdec, haddr, hacc, ?_⟩
  have happ := macDec_ok_app_length hdec hmax
  cases hclass : fcntClass acc (storedAfterReset acc ra s.session) with
  | stale =>
    rw [freshness_forceReset_of_stale hclass] at hsc
    cases hsc
  | replay =>
    obtain ⟨heq, hne⟩ := fcntClass_eq_replay hclass
    rw [freshness_forceReset_of_replay heq hne] at hsc
    cases hsc
    obtain ⟨hframe, deliver, _, hdeliver, hrow⟩ :=
      finishData_outcome f.type happ acc rssi s { Conditions.start with replay := true }
    rw [hdeliver rfl] at hrow
    refine ⟨hframe, ?_⟩
    obtain ⟨hsession, hevents⟩ | ⟨hsession, bytes, len, hresponse, hevents⟩ := hrow
    · exact .replaySilent heq hne hsession (hevents.trans (by simp [Conditions.start]))
    · exact .replayAnswered heq hne hsession hresponse hevents
  | fresh =>
    rw [freshness_forceReset_of_fresh hclass] at hsc
    cases hsc
    obtain ⟨hframe, deliver, hdeliver, _, hrow⟩ :=
      finishData_outcome f.type happ acc rssi (s.withFcntUp acc) { Conditions.start with dirty := true }
    refine ⟨hframe, ?_⟩
    obtain ⟨hsession, hevents⟩ | ⟨hsession, bytes, len, hresponse, hevents⟩ := hrow
    · exact .freshSilent hclass hsession hdeliver (hevents.trans (by simp))
    · exact .freshAnswered hclass hsession hresponse hdeliver hevents

/-- R220, R221: what a reception that is not dropped leaves: that of a join, or a row of the data branch. -/
theorem receive_outcome {raw : List Byte} {rssi : U16} {ra : Bool} {s t : State} (h : receive raw rssi ra s = .ok t) :
    (raw.head? = some 0x00 ∧ s.joinEn = true ∧ ∃ n, t = completeJoin n s) ∨
    (s.sessionValid = true ∧ t = { s with session := t.session, events := t.events } ∧
      ∃ acc, DataOutcome s acc (storedAfterReset acc ra s.session) t) := by
  obtain ⟨f, hf, ⟨htype, hen, hpath⟩ | ⟨_, hpath⟩⟩ := receive_ok h
  · obtain ⟨rfl, _, _⟩ := frmDec_ok hf
    obtain ⟨j, _, _, _, _, ht⟩ := joinPath_ok hpath
    rw [htype]
    exact .inl ⟨rfl, hen, j.devNonce, ht⟩
  · obtain ⟨_, _, hmax⟩ := frmDec_ok hf
    obtain ⟨_, acc, hvalid, _, _, _, hframe, houtcome⟩ := dataPath_outcome hpath hmax
    exact .inr ⟨hvalid, hframe, acc, houtcome⟩

end Sys2Proof.Machine
end

section
/-! PROOFS. The events of a reception and the pending events along a step (spec/60_exceptions.md R268 to R274,
spec/20_memory.md R50). -/

namespace Sys2Proof.Machine

/-- R270, R273: the events that a command adds, with the state `s` before it and `u` after it. -/
def AddsLegally (s u : State) (evs : List Event) : Prop :=
  u.events = s.events ++ evs ∧ legalSequence evs = true ∧
    (∀ record, Event.save record ∈ evs → record = u.session ∧ u.sessionValid = true) ∧
    (u.session ≠ s.session → Event.save u.session ∈ evs) ∧ (evs = [] → u = { s with response := [] })

/-- R260: a dropped frame adds none. -/
theorem addsLegally_drop (s : State) : AddsLegally s { s with response := [] } [] := by
  simp [AddsLegally, legalSequence]

/-- R229: EMIT, SAVE and JOINED of a join. -/
theorem addsLegally_completeJoin (n : Bytes2) (s : State) :
    ∃ evs, AddsLegally s { completeJoin n s with response := [] } evs := by
  rw [completeJoin_eq]
  refine ⟨_, rfl, ?_, ?_, ?_, ?_⟩
  · simp [legalSequence, joinAcceptFrame_length]
  · simp
  · simp
  · simp

theorem not_save_mem_of_dataTail {deliver : List Event} (h : dataTail deliver = true) (record : Session) :
    Event.save record ∉ deliver := by
  unfold dataTail at h
  split at h <;> simp_all

/-- R273: SAVE, and what the data branch may raise behind it. -/
theorem legalSequence_save (record : Session) {deliver : List Event} (h : dataTail deliver = true) :
    legalSequence (.save record :: deliver) = true := h

/-- R273: EMIT and SAVE, and what the data branch may raise behind them. -/
theorem legalSequence_emit_save {bytes : List Byte} {len : Nat} (hresponse : IsResponse bytes len) (record : Session)
    {deliver : List Event} (h : dataTail deliver = true) :
    legalSequence (.emit bytes len 1000 :: .save record :: deliver) = true := by
  obtain ⟨hbytes, hlen⟩ := hresponse
  have hne : deliver ≠ [.joined] := by rintro rfl; cases h
  simp [legalSequence, hbytes, hlen, h]

/-- R245, R273: the events of a row of the data branch. -/
theorem DataOutcome.addsLegally {s t : State} {acc stored : U32} (h : DataOutcome s acc stored t)
    (hvalid : s.sessionValid = true) (hframe : t = { s with session := t.session, events := t.events }) :
    ∃ evs, AddsLegally s { t with response := [] } evs := by
  have hvalid' : t.sessionValid = true := by rw [hframe]; exact hvalid
  cases h with
  | replaySilent heq hne hsession hevents =>
    refine ⟨[], ?_⟩
    rw [hframe, hsession, hevents]
    exact addsLegally_drop s
  | replayAnswered heq hne hsession hresponse hevents =>
    exact ⟨_, hevents, legalSequence_emit_save hresponse _ rfl, by simp [hvalid'], by simp, by simp⟩
  | freshSilent hclass hsession hdeliver hevents =>
    exact ⟨_, hevents, legalSequence_save _ hdeliver, by simp [not_save_mem_of_dataTail hdeliver, hvalid'], by simp,
      by simp⟩
  | freshAnswered hclass hsession hresponse hdeliver hevents =>
    exact ⟨_, hevents, legalSequence_emit_save hresponse _ hdeliver,
      by simp [not_save_mem_of_dataTail hdeliver, hvalid'], by simp, by simp⟩

/-- R273: the events of any reception that completes: of a drop, a join or a row of the data branch. -/
theorem Receives.addsLegally {i : Instr} {raw : List Byte} {rssi : U16} {ra : Bool} (hrec : Receives i raw rssi ra)
    {s u : State} (h : exec i s = .next u) : ∃ evs, AddsLegally s u evs := by
  obtain rfl | ⟨t, ht, rfl⟩ := hrec.exec_next h
  · exact ⟨[], addsLegally_drop s⟩
  · obtain ⟨_, _, n, rfl⟩ | ⟨hvalid, hframe, acc, houtcome⟩ := receive_outcome ht
    · exact addsLegally_completeJoin n s
    · exact houtcome.addsLegally hvalid hframe

/-- What every instruction does to the events: none is added, or they are those of a reception. -/
theorem exec_events {i : Instr} {s u : State} (h : exec i s = .next u) :
    u.events = s.events ∨ ∃ evs, AddsLegally s u evs := by
  obtain ⟨_, _, rfl⟩ | ⟨_, _, _, _, _, _, rfl⟩ | ⟨_, _, rfl⟩ | ⟨_, _, _, hrec, _⟩ := exec_next h
  · exact .inl rfl
  · exact .inl rfl
  · exact .inl rfl
  · exact .inr (hrec.addsLegally h)

/-- R273: what may follow the SAVE of the data branch may be pending on its own. -/
theorem legalPending_of_dataTail {evs : List Event} (h : dataTail evs = true) : legalPending evs = true := by
  unfold dataTail at h
  split at h
  · rfl
  · exact h
  · cases h

theorem legalPending_of_legalSequence {evs : List Event} (h : legalSequence evs = true) :
    legalPending evs = true := by
  simp [legalPending, h]

/-- R273, R274: when the oldest event returns, what is left is still the rest of a legal sequence. -/
theorem legalPending_tail {evs : List Event} (h : legalPending evs = true) : legalPending evs.tail = true := by
  unfold legalPending at h
  obtain h | h := Bool.or_eq_true_iff.mp h
  · unfold legalSequence at h
    split at h
    · rfl
    · rfl
    · rw [Bool.and_eq_true] at h
      exact legalPending_of_legalSequence h.2
    · exact legalPending_of_dataTail h
    · cases h
  · split at h
    · rfl
    · rfl
    · rfl
    · cases h

/-- R24, R273: with no event pending there is nothing to require. -/
theorem eventsInv_of_events_eq_nil {s : State} (h : s.events = []) : s.EventsInv := by
  rw [State.EventsInv, h]
  exact ⟨rfl, fun _ hmem => nomatch hmem⟩

/-- R273: from an idle block, events that were added legally meet the invariant. -/
theorem AddsLegally.eventsInv {s u : State} {evs : List Event} (h : AddsLegally s u evs) (hidle : s.events = []) :
    u.EventsInv := by
  obtain ⟨hevents, hlegal, hsave, _, _⟩ := h
  rw [hidle, List.nil_append] at hevents
  rw [State.EventsInv, hevents]
  exact ⟨legalPending_of_legalSequence hlegal, hsave⟩

/-- R274: the return of an event keeps the invariant. -/
theorem State.EventsInv.returnEvent {s : State} (h : s.EventsInv) : s.returnEvent.EventsInv := by
  obtain ⟨hlegal, hsave⟩ := h
  exact ⟨legalPending_tail hlegal, fun record hmem => hsave record (List.mem_of_mem_tail hmem)⟩

/-- Settles O55: a command runs in an idle block only and adds its events legally; otherwise an event returns. -/
theorem stepKeepsPendingEventsLegal : Obligations.StepKeepsPendingEventsLegal := by
  intro s u hinv hstep
  obtain ⟨bytes, moves, i, _, hidle, _, hexec⟩ | ⟨moves, _, rfl⟩ := step_next hstep
  · obtain hsame | ⟨evs, hadds⟩ := exec_events hexec
    · exact eventsInv_of_events_eq_nil (hsame.trans hidle)
    · exact hadds.eventsInv hidle
  · exact State.EventsInv.returnEvent (s := s.withHost moves) hinv

/-- Settles O56: after reset no event is pending. -/
theorem resetEventsLegal : Obligations.ResetEventsLegal := eventsInv_of_events_eq_nil rfl

/-- Settles O44: RX.FRAME is a reception, which adds its events legally. -/
theorem receptionEventsAreLegal : Obligations.ReceptionEventsAreLegal := by
  intro raw rssi ra s u h
  obtain ⟨evs, hevents, hlegal, hsave, hdirty, hnil⟩ := (Receives.rxFrame raw rssi ra).addsLegally h
  exact ⟨evs, hevents, hlegal, fun record hmem => (hsave record hmem).1, hdirty, hnil⟩

end Sys2Proof.Machine
end

section
/-! PROOFS. Which instructions complete, and which fields each may write (spec/10_state.md R13 to R17,
spec/60_exceptions.md R266, spec/45_frame_counter.md R205, spec/70_reset_and_hazards.md R291). -/

namespace Sys2Proof.Machine

/-! R65, R266: completion and refusal. -/

/-- R265: a CHECK command completes with either answer. -/
theorem checkReply_next (outcome : Except LocalFail (List Byte)) (s : State) : ∃ u, checkReply outcome s = .next u := by
  obtain ⟨_, _, h⟩ | ⟨_, _, h⟩ := checkReply_cases outcome s <;> exact ⟨_, h⟩

/-- R260: a reception completes, dropped or not. -/
theorem settle_next (outcome : Except DropCause State) (s : State) : ∃ u, settle outcome s = .next u := by
  obtain ⟨_, _, h⟩ | ⟨_, _, h⟩ := settle_cases outcome s <;> exact ⟨_, h⟩

/-- R266: a command is refused by the name of its first issue, or it completes. -/
theorem exec_command {i : Instr} (hcmd : i.isCommand = true) (s : State) :
    ∃ u, exec i s = require i.issue (.next u) := by
  cases i with
  | aesEnc | aesDec | jaccEnc | fcntCand | fcntClass | sessLoad => exact ⟨_, rfl⟩
  | cmacTag | micPlain | micData | ctrApply | kdfDerive | frmEnc | macEnc | cfgSet => exact ⟨_, rfl⟩
  | micCheck key cnt dir addr mic msg =>
    obtain ⟨u, hu⟩ := checkReply_next (micCheck key cnt (dirOf dir) addr mic msg) s
    exact ⟨u, congrArg (require _) hu⟩
  | frmDec raw =>
    obtain ⟨u, hu⟩ := checkReply_next ((frmDec raw).map frameResults) s
    exact ⟨u, congrArg (require _) hu⟩
  | macDec payload =>
    obtain ⟨u, hu⟩ := checkReply_next ((macDec payload).map macResults) s
    exact ⟨u, congrArg (require _) hu⟩
  | jreqDec payload =>
    obtain ⟨u, hu⟩ := checkReply_next ((jreqDec payload).map joinRequestResults) s
    exact ⟨u, congrArg (require _) hu⟩
  | rxFrame raw rssi ra =>
    obtain ⟨u, hu⟩ := settle_next (receive raw rssi ra s) s
    exact ⟨u, (exec_rxFrame_eq raw rssi ra s).trans (congrArg (require _) hu)⟩
  | _ => exact absurd hcmd Bool.false_ne_true

/-- R71: the issue of a frame-type term. -/
theorem frameInstr_issue (t : FrameType) (payload : List Byte) (tag : Bytes4) (rssi : U16) (ra : Bool) :
    (frameInstr t payload tag rssi ra).issue = (checkFramePayload payload).or (checkRssi rssi) := by
  cases t <;> rfl

/-- R71: the frame-type terms that are instructions. -/
theorem frameInstr_wellFormed {t : FrameType} {payload : List Byte} {tag : Bytes4} {rssi : U16} {ra : Bool} :
    (frameInstr t payload tag rssi ra).wellFormed = true ↔
      (7 ≤ payload.length ∧ payload.length ≤ 59) ∧ rssi.toInt ≤ 135 := by
  rw [wellFormed_iff, frameInstr_issue, Option.or_eq_none_iff, checkFramePayload_eq_none, checkRssi_eq_none]

/-- R71: a term that is no command is a frame type. -/
theorem eq_frameInstr_of_not_isCommand {i : Instr} (h : i.isCommand = false) :
    ∃ t payload tag rssi ra, i = frameInstr t payload tag rssi ra := by
  cases i with
  | typeJoinRequest => exact ⟨.joinRequest, _, _, _, _, rfl⟩
  | typeJoinAccept => exact ⟨.joinAccept, _, _, _, _, rfl⟩
  | typeUnconfirmedUp => exact ⟨.unconfirmedUp, _, _, _, _, rfl⟩
  | typeUnconfirmedDown => exact ⟨.unconfirmedDown, _, _, _, _, rfl⟩
  | typeConfirmedUp => exact ⟨.confirmedUp, _, _, _, _, rfl⟩
  | typeConfirmedDown => exact ⟨.confirmedDown, _, _, _, _, rfl⟩
  | _ => cases h

/-- R65: a well-formed instruction completes: a command has no issue to be refused by, and a frame type only the signal
strength. -/
theorem exec_of_wellFormed {i : Instr} (hwf : i.wellFormed = true) (s : State) : ∃ u, exec i s = .next u := by
  cases hcmd : i.isCommand with
  | true =>
    obtain ⟨u, hu⟩ := exec_command hcmd s
    rw [wellFormed_iff.mp hwf, require_none] at hu
    exact ⟨u, hu⟩
  | false =>
    obtain ⟨t, payload, tag, rssi, ra, rfl⟩ := eq_frameInstr_of_not_isCommand hcmd
    obtain ⟨_, hrssi⟩ := frameInstr_wellFormed.mp hwf
    rw [exec_frameInstr, runFrame, checkRssi_eq_none.mpr hrssi, require_none]
    exact settle_next _ s

/-- Settles O52: `exec_of_wellFormed`, and the refusal of `exec_command`. -/
theorem refusedExactlyWhenIllFormed : Obligations.RefusedExactlyWhenIllFormed := by
  refine ⟨fun i s hwf => exec_of_wellFormed hwf s, fun i s hcmd hill => ?_⟩
  obtain ⟨u, hu⟩ := exec_command hcmd s
  cases hissue : i.issue with
  | none => rw [wellFormed_iff.mpr hissue] at hill; cases hill
  | some e => exact ⟨e, rfl, by rw [hu, hissue, require_some]⟩

/-! R13 to R17: the fields that a reception leaves alone. -/

theorem DataOutcome.devAddr_eq {s t : State} {acc stored : U32} (h : DataOutcome s acc stored t) :
    t.session.devAddr = s.session.devAddr := by
  cases h with
  | replaySilent _ _ hsession | replayAnswered _ _ hsession | freshSilent _ hsession | freshAnswered _ hsession =>
    rw [hsession]

/-- R227: the address is carried forward by a join. -/
theorem completeJoin_devAddr (n : Bytes2) (s : State) :
    (completeJoin n s).session.devAddr = s.session.devAddr := by
  rw [completeJoin_eq]
  rfl

/-- R13 to R17: a reception that is not dropped writes no identity, address, enable and move; it leaves a session. -/
theorem receive_frame {raw : List Byte} {rssi : U16} {ra : Bool} {s t : State} (h : receive raw rssi ra s = .ok t) :
    t.ident = s.ident ∧ t.host = s.host ∧ t.sessionValid = true ∧ t.session.devAddr = s.session.devAddr ∧
      t.joinEn = s.joinEn ∧ t.deliverEn = s.deliverEn := by
  obtain ⟨_, _, n, rfl⟩ | ⟨hvalid, hframe, acc, houtcome⟩ := receive_outcome h
  · obtain ⟨hident, hjoin, hdeliver, hhost, hvalid, _⟩ := completeJoin_fields n s
    exact ⟨hident, hhost, hvalid, completeJoin_devAddr n s, hjoin, hdeliver⟩
  · have haddr := houtcome.devAddr_eq
    rw [hframe]
    exact ⟨rfl, rfl, hvalid, haddr, rfl, rfl⟩

/-- R62, R71: a reception is of class FRAME or it is RX.FRAME. -/
theorem Receives.kind {i : Instr} {raw : List Byte} {rssi : U16} {ra : Bool} (h : Receives i raw rssi ra) :
    i.instrClass = .frame ∨ i = .rxFrame raw rssi ra := by
  cases h with
  | rxFrame => exact .inr rfl
  | frameType t => exact .inl (by cases t <;> rfl)

/-- Settles O46: the kinds of `exec_next`, a reception by `receive_frame`. -/
theorem stateIsWrittenOnlyByItsOwners : Obligations.StateIsWrittenOnlyByItsOwners := by
  intro i s u h
  obtain ⟨hcomp, r, rfl⟩ | ⟨a, k, n, up, down, rfl, rfl⟩ | ⟨cfg, rfl, rfl⟩ | ⟨raw, rssi, ra, hrec, hu⟩ := exec_next h
  · exact ⟨rfl, rfl, id, fun _ => rfl, fun _ => ⟨rfl, rfl⟩, fun _ _ => ⟨rfl, rfl, rfl, fun _ => ⟨rfl, rfl⟩⟩,
      fun hno => absurd hcomp (by simp [hno])⟩
  · exact ⟨rfl, rfl, fun _ => rfl, fun hne => absurd rfl (hne a k n up down), fun _ => ⟨rfl, rfl⟩,
      fun _ _ => ⟨rfl, rfl, rfl, fun hne => absurd rfl (hne a k n up down)⟩, fun _ => rfl⟩
  · exact ⟨rfl, rfl, id, fun _ => rfl, fun hne => absurd rfl (hne cfg),
      fun _ _ => ⟨rfl, rfl, rfl, fun _ => ⟨rfl, rfl⟩⟩, fun _ => rfl⟩
  · have hfields : u.ident = s.ident ∧ u.host = s.host ∧ (s.sessionValid = true → u.sessionValid = true) ∧
        u.session.devAddr = s.session.devAddr ∧ (u.joinEn = s.joinEn ∧ u.deliverEn = s.deliverEn) ∧
        u.response = [] := by
      obtain rfl | ⟨t, ht, rfl⟩ := hu
      · exact ⟨rfl, rfl, id, rfl, ⟨rfl, rfl⟩, rfl⟩
      · obtain ⟨hident, hhost, hvalid, haddr, hen⟩ := receive_frame ht
        exact ⟨hident, hhost, fun _ => hvalid, haddr, hen, rfl⟩
    obtain ⟨hident, hhost, hvalid, haddr, hen, hresponse⟩ := hfields
    refine ⟨hident, hhost, hvalid, fun _ => haddr, fun _ => hen, fun hclass hrx => ?_, fun _ => hresponse⟩
    obtain hframe | rfl := hrec.kind
    · exact absurd hframe hclass
    · exact absurd rfl (hrx raw rssi ra)

/-- Settles O51: a join needs JOIN_EN and the data branch a session, so every reception is dropped. -/
theorem nothingHappensBeforeSetUp : Obligations.NothingHappensBeforeSetUp := by
  intro i s hvalid hjoin _ hwf hcfg hload
  obtain ⟨u, hu⟩ := exec_of_wellFormed hwf s
  rw [hu]
  obtain ⟨hcomp, r, rfl⟩ | ⟨a, k, n, up, down, rfl, _⟩ | ⟨cfg, rfl, _⟩ | ⟨raw, rssi, ra, hrec, rfl | ⟨t, ht, _⟩⟩ :=
    exec_next hu
  · exact ⟨r, rfl, fun hno => absurd hcomp (by simp [hno])⟩
  · exact absurd rfl (hload a k n up down)
  · exact absurd rfl (hcfg cfg)
  · exact ⟨[], rfl, fun _ => rfl⟩
  · obtain ⟨_, hen, _⟩ | ⟨hvalid', _⟩ := receive_outcome ht
    · rw [hjoin] at hen; cases hen
    · rw [hvalid] at hvalid'; cases hvalid'

/-! R205: the uplink counter along a step. -/

/-- R203: a fresh counter is not below the stored one. -/
theorem le_of_fresh {acc stored : U32} (h : fcntClass acc stored = .fresh) : stored.toNat ≤ acc.toNat := by
  by_contra hlt
  rw [fcntClass_of_lt (not_le.mp hlt)] at h
  cases h

/-- R205: a data frame lowers the counter only by the reset rule, to 0, and it is saved. -/
theorem DataOutcome.fcntUp_lower {s t : State} {acc : U32} {ra : Bool}
    (h : DataOutcome s acc (storedAfterReset acc ra s.session) t)
    (hlower : t.session.fcntUp.toNat < s.session.fcntUp.toNat) :
    ra = true ∧ t.session.fcntUp = 0 ∧ Event.save t.session ∈ t.events := by
  have hfresh (hclass : fcntClass acc (storedAfterReset acc ra s.session) = .fresh) (hup : t.session.fcntUp = acc) :
      ra = true ∧ t.session.fcntUp = 0 := by
    rw [hup] at hlower
    have hle := le_of_fresh hclass
    unfold storedAfterReset at hle
    split at hle
    · rename_i hforced
      obtain ⟨hacc, hra⟩ := resetForced_eq_true.mp hforced
      exact ⟨hra, hup.trans hacc⟩
    · omega
  cases h with
  | replaySilent _ _ hsession | replayAnswered _ _ hsession =>
    rw [hsession] at hlower
    exact absurd hlower (lt_irrefl _)
  | freshSilent hclass hsession _ hevents =>
    obtain ⟨hra, hzero⟩ := hfresh hclass (by rw [hsession])
    exact ⟨hra, hzero, by simp [hevents]⟩
  | freshAnswered hclass hsession _ _ hevents =>
    obtain ⟨hra, hzero⟩ := hfresh hclass (by rw [hsession])
    exact ⟨hra, hzero, by simp [hevents]⟩

/-- Settles O48: only a command of an idle block writes the counter; it is SESS.LOAD, or RX.FRAME ending in a join or
in a row of the data branch. -/
theorem uplinkCounterIsMonotonic : Obligations.UplinkCounterIsMonotonic := by
  intro s u hstep hlower
  obtain ⟨bytes, moves, i, hhost, hidle, hdec, hexec⟩ | ⟨moves, _, rfl⟩ := step_next hstep
  · refine ⟨bytes, moves, i, hhost, hdec, hidle, ?_⟩
    obtain ⟨_, _, rfl⟩ | ⟨a, k, n, up, down, rfl, _⟩ | ⟨_, _, rfl⟩ | ⟨raw, rssi, ra, hrec, rfl | ⟨t, ht, rfl⟩⟩ :=
      exec_next hexec
    · exact absurd hlower (lt_irrefl _)
    · exact .inl ⟨a, k, n, up, down, rfl⟩
    · exact absurd hlower (lt_irrefl _)
    · exact absurd hlower (lt_irrefl _)
    · obtain ⟨_, hcmd⟩ := decode_ok hdec
      obtain hframe | rfl := hrec.kind
      · simp [Instr.isCommand, hframe] at hcmd
      obtain ⟨hhead, _, n, rfl⟩ | ⟨_, _, acc, houtcome⟩ := receive_outcome ht
      · refine .inr (.inl ⟨raw, rssi, ra, rfl, hhead, ?_⟩)
        rw [completeJoin_eq]
        exact ⟨rfl, by simp⟩
      · obtain ⟨rfl, hzero, hsave⟩ := houtcome.fcntUp_lower hlower
        exact .inr (.inr ⟨raw, rssi, rfl, hzero, hsave⟩)
  · exact absurd hlower (lt_irrefl _)

end Sys2Proof.Machine
end

section
/-! PROOFS. One step of the machine around its commands (spec/60_exceptions.md R267, R274,
spec/70_reset_and_hazards.md R300), and the state after reset (spec/10_state.md R24). -/

namespace Sys2Proof.Machine

theorem step_issue {s : State} {bytes : List Byte} {moves : List HostMove} (h : s.host = .issue bytes :: moves) :
    step s = issueCommand bytes (s.withHost moves) := by
  simp only [step, takeStep, h]

theorem step_wait {s : State} {moves : List HostMove} (h : s.host = .wait :: moves) :
    step s = .next (s.withHost moves).returnEvent := by
  simp only [step, takeStep, h]

theorem step_no_move {s : State} (h : s.host = []) : step s = .next s.returnEvent := by
  simp only [step, takeStep, h]

/-- R22, R300: a block with nothing pending runs the command. -/
theorem issueCommand_of_idle {s : State} (h : s.events = []) (bytes : List Byte) :
    issueCommand bytes s = runCommand bytes s := by
  rw [issueCommand, State.busy_eq_false.mpr h, if_neg Bool.false_ne_true]

/-- Settles O53: an idle block decodes the bytes and runs the command, or is refused by the decoder's name. -/
theorem stepRunsTheIssuedCommand : Obligations.StepRunsTheIssuedCommand := by
  intro s bytes moves hhost hidle
  have hstep : step s = runCommand bytes (s.withHost moves) :=
    (step_issue hhost).trans (issueCommand_of_idle (s := s.withHost moves) hidle bytes)
  refine ⟨fun i hi => ?_, fun e he => ?_⟩
  · rw [hstep, runCommand, hi]
    rfl
  · rw [hstep, runCommand, he]

/-- Settles O54: the three moves of the host; with nothing pending the return of an event changes nothing. -/
theorem busyBlockRefusesAndEventsReturn : Obligations.BusyBlockRefusesAndEventsReturn := by
  intro s
  refine ⟨fun hbusy bytes moves hhost => ?_, fun moves hhost => step_wait hhost, step_no_move, fun hhost hidle => ?_⟩
  · have : (s.withHost moves).busy = true := by simpa [State.busy] using hbusy
    rw [step_issue hhost, issueCommand, if_pos this]
  · rw [step_no_move hhost, State.returnEvent, hidle, List.tail_nil, ← hidle]

/-- Settles O50: the fields of `State.reset`. -/
theorem resetValues : Obligations.ResetValues := ⟨rfl, rfl, rfl, rfl, rfl, rfl, rfl⟩

end Sys2Proof.Machine
end

section
/-! PROOFS. Two elements that are not read (spec/10_state.md R13, R25): the identity outside a join, and the session
keys and counters while no session is valid. A reception that is not dropped in one of two such states is not dropped in
the other; since the two may change places, the same ones are dropped in both. -/

namespace Sys2Proof.Machine

/-- R220, R230: the reception of a data frame. -/
theorem receive_of_isData {raw : List Byte} {f : Frame} (hf : frmDec raw = .ok f) (hdata : f.type.isData = true)
    (rssi : U16) (ra : Bool) (s : State) : receive raw rssi ra s = dataPath f rssi ra s := by
  simp only [receive, hf, dispatchFrame_of_isData hdata]

/-- R220, R222: the reception of a join request. -/
theorem receive_of_joinRequest {raw : List Byte} {f : Frame} (hf : frmDec raw = .ok f) (htype : f.type = .joinRequest)
    {s : State} (hen : s.joinEn = true) (rssi : U16) (ra : Bool) : receive raw rssi ra s = joinPath f s := by
  simp only [receive, hf, dispatchFrame, htype, hen, if_true]

/-! R13: the identity. -/

/-- R13: the state with another identity. -/
def State.withIdent (s : State) (other : Identity) : State := { s with ident := other }

/-- R230: the steps after the freshness check do not look at the identity. -/
theorem finishData_withIdent (type : FrameType) (m : MacPayload) (acc : U32) (rssi : U16) (sc : State × Conditions)
    (other : Identity) :
    finishData type m acc rssi (sc.1.withIdent other, sc.2) = (finishData type m acc rssi sc).withIdent other := by
  obtain ⟨s, c⟩ := sc
  rw [finishData_eq_update type m acc rssi s c rfl rfl rfl,
    finishData_eq_update type m acc rssi (s.withIdent other) c rfl rfl rfl]
  rfl

/-- R234, R235: nor does the freshness check. -/
theorem freshness_withIdent (acc : U32) (ra : Bool) (s : State) (other : Identity) :
    freshness acc (forceReset acc ra (s.withIdent other, Conditions.start)) =
      (freshness acc (forceReset acc ra (s, Conditions.start))).map fun sc => (sc.1.withIdent other, sc.2) := by
  cases hclass : fcntClass acc (storedAfterReset acc ra s.session) with
  | stale =>
    rw [freshness_forceReset_of_stale hclass, freshness_forceReset_of_stale (s := s.withIdent other) hclass]
    rfl
  | replay =>
    obtain ⟨heq, hne⟩ := fcntClass_eq_replay hclass
    rw [freshness_forceReset_of_replay heq hne, freshness_forceReset_of_replay (s := s.withIdent other) heq hne]
    rfl
  | fresh =>
    rw [freshness_forceReset_of_fresh hclass, freshness_forceReset_of_fresh (s := s.withIdent other) hclass]
    rfl

/-- R13, R230: a reception that is no join does the same under another identity. -/
theorem receive_withIdent {raw : List Byte} {rssi : U16} {ra : Bool} {s t : State} (hhead : raw.head? ≠ some 0x00)
    (h : receive raw rssi ra s = .ok t) (other : Identity) :
    receive raw rssi ra (s.withIdent other) = .ok (t.withIdent other) := by
  obtain ⟨f, hf, ⟨htype, _⟩ | ⟨hdata, hpath⟩⟩ := receive_ok h
  · obtain ⟨rfl, _, _⟩ := frmDec_ok hf
    rw [htype] at hhead
    exact absurd rfl hhead
  · obtain ⟨m, acc, sc, hvalid, hdec, haddr, hacc, hsc, rfl⟩ := dataPath_ok hpath
    rw [receive_of_isData hf hdata, dataPath_of_accepted (s := s.withIdent other) hvalid hdec haddr hacc,
      freshness_withIdent, hsc, ← finishData_withIdent]
    rfl

/-- What an outcome is when its next state is changed. -/
def mapNext (g : State → State) : Out → Out
  | .next u => .next (g u)
  | .fault e => .fault e
  | .refused r => .refused r

theorem mapNext_require (g : State → State) (issue : Option IllFormed) (k : Out) :
    mapNext g (require issue k) = require issue (mapNext g k) := by
  cases issue <;> rfl

/-- R13, R260: such a reception settles to the same outcome, the identity apart. -/
theorem settle_withIdent {raw : List Byte} (hhead : raw.head? ≠ some 0x00) (rssi : U16) (ra : Bool) (s : State)
    (other : Identity) :
    settle (receive raw rssi ra (s.withIdent other)) (s.withIdent other) =
      mapNext (State.withIdent · other) (settle (receive raw rssi ra s) s) := by
  cases hs : receive raw rssi ra s with
  | ok t =>
    rw [receive_withIdent hhead hs other]
    rfl
  | error cause =>
    cases hs' : receive raw rssi ra (s.withIdent other) with
    | ok t =>
      have hback : receive raw rssi ra s = .ok (t.withIdent s.ident) := receive_withIdent hhead hs' s.ident
      rw [hs] at hback
      cases hback
    | error cause' => rfl

/-- R13: an instruction that is no reception of a join request does not read the identity. -/
theorem exec_withIdent {i : Instr} (hjoin : ∀ payload tag rssi ra, i ≠ .typeJoinRequest payload tag rssi ra)
    (hrx : ∀ raw rssi ra, i = .rxFrame raw rssi ra → raw.head? ≠ some 0x00) (s : State) (other : Identity) :
    exec i (s.withIdent other) = mapNext (State.withIdent · other) (exec i s) := by
  obtain hcomp | ⟨_, _, _, _, _, rfl⟩ | ⟨cfg, rfl⟩ | ⟨raw, rssi, ra, hrec⟩ := instr_kinds i
  · obtain ⟨r, hr⟩ | ⟨e, he⟩ := stateFree_exec hcomp
    · rw [hr, hr]
      rfl
    · rw [he, he]
      rfl
  · rfl
  · rw [exec_cfgSet, exec_cfgSet, mapNext_require]
    rfl
  · have hhead : raw.head? ≠ some 0x00 := by
      cases hrec with
      | rxFrame => exact hrx raw rssi ra rfl
      | frameType t payload tag =>
        cases t with
        | joinRequest => exact absurd rfl (hjoin payload tag rssi ra)
        | _ => simp [frmEnc, FrameType.toByte]
    obtain ⟨issue, hexec⟩ := hrec.exec_eq
    rw [hexec, hexec, settle_withIdent hhead, mapNext_require]

/-- Settles O47: the two outcomes that `exec_withIdent` maps onto each other. -/
theorem identityIsReadOnlyInJoins : Obligations.IdentityIsReadOnlyInJoins := by
  intro i s other hjoin hrx
  have hexec := exec_withIdent hjoin hrx s other
  refine ⟨fun u hu => ?_, fun r hr => ?_⟩
  · rw [hu] at hexec
    exact hexec
  · rw [hr] at hexec
    exact hexec

/-! R25: the session keys and the counters. -/

theorem sameWhileUnjoined_symm {s t : State} (h : sameWhileUnjoined s t) : sameWhileUnjoined t s := by
  obtain ⟨hs, ht, haddr, heq⟩ := h
  exact ⟨ht, hs, haddr.symm, by rw [heq]⟩

/-- R227: a join replaces the keys and the counters, so it leaves one and the same state. -/
theorem completeJoin_of_sameWhileUnjoined {s t : State} (h : sameWhileUnjoined s t) (n : Bytes2) :
    completeJoin n t = completeJoin n s := by
  obtain ⟨_, _, haddr, heq⟩ := h
  rw [completeJoin_eq, completeJoin_eq, heq]
  simp only [joinedSession, haddr]
  rfl

/-- R25: a reception that is not dropped in one of two such states leaves the same in the other: it is a join. -/
theorem receive_of_sameWhileUnjoined {raw : List Byte} {rssi : U16} {ra : Bool} {s t u : State}
    (h : sameWhileUnjoined s t) (hrec : receive raw rssi ra s = .ok u) : receive raw rssi ra t = .ok u := by
  have ⟨hvalid, _, _, heq⟩ := h
  have hident : t.ident = s.ident := by rw [heq]
  obtain ⟨f, hf, ⟨htype, hen, hpath⟩ | ⟨_, hpath⟩⟩ := receive_ok hrec
  · obtain ⟨j, hj, happ, hdev, htag, rfl⟩ := joinPath_ok hpath
    have hen' : t.joinEn = true := by rw [heq]; exact hen
    rw [receive_of_joinRequest hf htype hen', ← completeJoin_of_sameWhileUnjoined h]
    refine joinPath_of_valid ?_ (by rw [hident]; exact htag)
    rw [hident, ← happ, ← hdev]
    exact jreqDec_ok hj
  · obtain ⟨_, _, _, hvalid', _⟩ := dataPath_ok hpath
    rw [hvalid] at hvalid'
    cases hvalid'

/-- R25, R260: a reception settles to the same outcome, up to the four elements where it is dropped. -/
theorem settle_of_sameWhileUnjoined {s t : State} (h : sameWhileUnjoined s t) (raw : List Byte) (rssi : U16)
    (ra : Bool) :
    sameOutcomeWhileUnjoined (settle (receive raw rssi ra s) s) (settle (receive raw rssi ra t) t) := by
  cases hs : receive raw rssi ra s with
  | ok u =>
    rw [receive_of_sameWhileUnjoined h hs]
    exact .inl rfl
  | error cause =>
    cases ht : receive raw rssi ra t with
    | ok u =>
      have hback := receive_of_sameWhileUnjoined (sameWhileUnjoined_symm h) ht
      rw [hs] at hback
      cases hback
    | error cause' =>
      obtain ⟨hvalid, hvalid', haddr, heq⟩ := h
      exact .inr ⟨hvalid, hvalid', haddr, congrArg State.drop heq⟩

theorem sameOutcomeWhileUnjoined_require {o o' : Out} (h : sameOutcomeWhileUnjoined o o')
    (issue : Option IllFormed) : sameOutcomeWhileUnjoined (require issue o) (require issue o') := by
  cases issue with
  | none => exact h
  | some e => rfl

/-- R25: no instruction reads the four elements before a session exists. -/
theorem exec_of_sameWhileUnjoined {s t : State} (h : sameWhileUnjoined s t) (i : Instr) :
    sameOutcomeWhileUnjoined (exec i s) (exec i t) := by
  have ⟨hvalid, hvalid', haddr, heq⟩ := h
  obtain hcomp | ⟨a, k, n, up, down, rfl⟩ | ⟨cfg, rfl⟩ | ⟨raw, rssi, ra, hrec⟩ := instr_kinds i
  · obtain ⟨r, hr⟩ | ⟨e, he⟩ := stateFree_exec hcomp
    · rw [hr, hr]
      exact .inr ⟨hvalid, hvalid', haddr, congrArg (State.respond · r) heq⟩
    · rw [he, he]
      rfl
  · rw [heq]
    exact .inl rfl
  · rw [exec_cfgSet, exec_cfgSet]
    refine sameOutcomeWhileUnjoined_require ?_ _
    exact Or.inr ⟨hvalid, hvalid', haddr, by rw [heq]⟩
  · obtain ⟨issue, hexec⟩ := hrec.exec_eq
    rw [hexec, hexec]
    exact sameOutcomeWhileUnjoined_require (settle_of_sameWhileUnjoined h raw rssi ra) issue

theorem sameWhileUnjoined_returnEvent {s t : State} (h : sameWhileUnjoined s t) :
    sameWhileUnjoined s.returnEvent t.returnEvent := by
  obtain ⟨hvalid, hvalid', haddr, heq⟩ := h
  exact ⟨hvalid, hvalid', haddr, congrArg State.returnEvent heq⟩

/-- Settles O49: two such states make the same move; what it runs does not read the four elements. -/
theorem unjoinedSessionIsNeverRead : Obligations.UnjoinedSessionIsNeverRead := by
  intro s t h
  have ⟨hvalid, hvalid', haddr, heq⟩ := h
  have hhost : t.host = s.host := by rw [heq]
  have hevents : t.events = s.events := by rw [heq]
  have hmoved (moves : List HostMove) : sameWhileUnjoined (s.withHost moves) (t.withHost moves) :=
    ⟨hvalid, hvalid', haddr, congrArg (State.withHost · moves) heq⟩
  cases hs : s.host with
  | nil =>
    rw [step_no_move hs, step_no_move (hhost.trans hs)]
    exact .inr (sameWhileUnjoined_returnEvent h)
  | cons move moves =>
    cases move with
    | wait =>
      rw [step_wait hs, step_wait (hhost.trans hs)]
      exact .inr (sameWhileUnjoined_returnEvent (hmoved moves))
    | issue bytes =>
      have hbusy : (t.withHost moves).busy = (s.withHost moves).busy := by simp [State.busy, hevents]
      rw [step_issue hs, step_issue (hhost.trans hs), issueCommand, issueCommand, hbusy, runCommand, runCommand]
      split
      · rfl
      · cases decode bytes with
        | ok i => exact exec_of_sameWhileUnjoined (hmoved moves) i
        | error e => rfl

end Sys2Proof.Machine
end

section
/-! PROOFS. Receptions (spec/46_protocol_engine.md R220 to R236, spec/60_exceptions.md R260, R261): a frame-type
instruction and RX.FRAME on its frame are the same, each drop as a condition that a reception meets which is not
dropped, and replays. -/

namespace Sys2Proof.Machine

/-! R70, R71, R220: a frame and its type. -/

/-- R170, R175 (3): a frame that decodes after it was encoded has the fields it was given, and a legal payload. -/
theorem frmDec_frmEnc_ok {t : FrameType} {payload : List Byte} {tag : Bytes4} {f : Frame}
    (h : frmDec (frmEnc t.toByte payload tag) = .ok f) :
    f = ⟨t, payload, tag⟩ ∧ 7 ≤ payload.length ∧ payload.length ≤ 59 := by
  obtain ⟨heq, hmin, hmax⟩ := frmDec_ok h
  have hlen : payload.length = f.payload.length := by simpa using congrArg List.length heq
  rw [← hlen] at hmin hmax
  rw [frmDec_frmEnc t tag hmin hmax] at h
  cases h
  exact ⟨rfl, hmin, hmax⟩

/-- Settles O18: `frmDec_frmEnc`, and `frmDec_ok` for the other direction. -/
theorem outerFrameRoundTrip : Obligations.OuterFrameRoundTrip := by
  refine ⟨fun t payload tag hmin hmax => frmDec_frmEnc t tag hmin hmax, fun raw f h => ?_⟩
  obtain ⟨hraw, _, _⟩ := frmDec_ok h
  exact hraw.symm

/-- R70: the words of a frame-type instruction are its frame. -/
theorem encode_frameInstr (t : FrameType) (payload : List Byte) (tag : Bytes4) (rssi : U16) (ra : Bool) :
    encode (frameInstr t payload tag rssi ra) = frmEnc t.toByte payload tag := by
  cases t <;> rfl

/-- Settles O59: the frame of a legal payload is read back field by field. -/
theorem frameIsReadBack : Obligations.FrameIsReadBack := by
  intro t payload tag rssi ra hwf
  obtain ⟨⟨hmin, hmax⟩, _⟩ := frameInstr_wellFormed.mp hwf
  rw [encode_frameInstr, decodeFrame, frmDec_frmEnc t tag hmin hmax]

/-- Settles O31: the string is the frame of the instruction, which fits the operand of RX.FRAME. -/
theorem receptionRunsTheFrameType : Obligations.ReceptionRunsTheFrameType := by
  intro raw rssi ra i s h
  unfold decodeFrame at h
  split at h
  · rename_i f hf
    cases h
    obtain ⟨hraw, _, hmax⟩ := frmDec_ok hf
    have hraw : raw = frmEnc f.type.toByte f.payload f.tag := hraw
    rw [exec_rxFrame (by rw [hraw, frmEnc_length]; omega), exec_frameInstr, hraw]
  · cases h

/-! R220, R260: refusal and drop. -/

/-- R220: the name of the refusal. -/
theorem checkRssi_of_gt {rssi : U16} (h : 135 < rssi.toInt) : checkRssi rssi = some .rssiTooHigh :=
  if_neg (by rw [decide_eq_true_iff]; exact not_le.mpr h)

/-- Settles O32: both kinds of reception come to the check of the signal strength first. -/
theorem strongSignalIsRefused : Obligations.StrongSignalIsRefused := by
  intro raw payload t tag rssi ra s hrssi
  have hrefused (raw : List Byte) : runFrame raw rssi ra s = .refused (.illFormed .rssiTooHigh) := by
    rw [runFrame, checkRssi_of_gt hrssi, require_some]
  exact ⟨fun hlen => (exec_rxFrame hlen rssi ra s).trans (hrefused raw),
    (exec_frameInstr t payload tag rssi ra s).trans (hrefused _)⟩

/-- R260: a reception that reaches the end of no branch is dropped. -/
theorem runFrame_dropped {raw : List Byte} {rssi : U16} {ra : Bool} {s : State} (hrssi : rssi.toInt ≤ 135)
    (h : ∀ t, receive raw rssi ra s ≠ .ok t) : runFrame raw rssi ra s = .next { s with response := [] } := by
  rw [runFrame, checkRssi_eq_none.mpr hrssi, require_none]
  cases hrec : receive raw rssi ra s with
  | ok t => exact absurd hrec (h t)
  | error cause => rfl

/-- Settles O33: of the two ends of a reception, one is of a join request and the other of a data type. -/
theorem inboundJoinAcceptIsDropped : Obligations.InboundJoinAcceptIsDropped := by
  intro payload tag rssi ra s hrssi
  refine runFrame_dropped hrssi fun t ht => ?_
  obtain ⟨f, hf, hbranch⟩ := receive_ok ht
  obtain ⟨rfl, _, _⟩ := frmDec_frmEnc_ok hf
  obtain ⟨htype, _⟩ | ⟨hdata, _⟩ := hbranch
  · cases htype
  · cases hdata

/-! R222 to R225: the join branch. -/

/-- R222 to R225: what a join request has met that is not dropped. -/
theorem receive_joinRequest_ok {payload : List Byte} {tag : Bytes4} {rssi : U16} {ra : Bool} {s t : State}
    (h : receive (frmEnc FrameType.joinRequest.toByte payload tag) rssi ra s = .ok t) :
    s.joinEn = true ∧ (∃ n : Bytes2, payload =
        s.ident.appEui.toList.reverse ++ s.ident.devEui.toList.reverse ++ n.toList.reverse) ∧
      micPlain s.ident.rootKey (0x00 :: payload) = tag := by
  obtain ⟨f, hf, hbranch⟩ := receive_ok h
  obtain ⟨rfl, _, _⟩ := frmDec_frmEnc_ok hf
  obtain ⟨_, hen, hpath⟩ | ⟨hdata, _⟩ := hbranch
  · obtain ⟨j, hj, happ, hdev, htag, _⟩ := joinPath_ok hpath
    rw [← happ, ← hdev]
    exact ⟨hen, ⟨j.devNonce, jreqDec_ok hj⟩, htag⟩
  · cases hdata

/-- Settles O34: a string that is no frame does not decode; every other cause contradicts `receive_joinRequest_ok`. -/
theorem joinBranchDrops : Obligations.JoinBranchDrops := by
  intro raw payload tag rssi ra s hrssi dropped
  have hnoFrame (hlen : raw.length ≤ 255) (hbad : raw.length < 12 ∨ 64 < raw.length ∨
      ∀ b ∈ raw.head?, b ∉ [(0x00 : Byte), 0x20, 0x40, 0x60, 0x80, 0xA0]) :
      exec (.rxFrame raw rssi ra) s = dropped := by
    rw [exec_rxFrame hlen]
    refine runFrame_dropped hrssi fun t ht => ?_
    obtain ⟨e, he⟩ := frmDec_fails hbad
    obtain ⟨f, hf, _⟩ := receive_ok ht
    rw [he] at hf
    cases hf
  have hnoJoin (h : ∀ t, receive (frmEnc FrameType.joinRequest.toByte payload tag) rssi ra s ≠ .ok t) :
      exec (.typeJoinRequest payload tag rssi ra) s = dropped := runFrame_dropped hrssi h
  refine ⟨fun hshort => hnoFrame (by omega) (.inl hshort), fun hlong hlen => hnoFrame hlen (.inr (.inl hlong)),
    fun hlen htype => hnoFrame hlen (.inr (.inr htype)), fun hjoin => hnoJoin fun t ht => ?_,
    fun hlen => hnoJoin fun t ht => ?_, fun happ => hnoJoin fun t ht => ?_, fun hdev => hnoJoin fun t ht => ?_,
    fun htag => hnoJoin fun t ht => ?_⟩
  all_goals obtain ⟨hen, ⟨n, rfl⟩, hmic⟩ := receive_joinRequest_ok ht
  · rw [hjoin] at hen
    cases hen
  · exact hlen rfl
  · exact happ rfl
  · exact hdev rfl
  · rw [← hmic, micPlain, truncateTag_toList] at htag
    exact htag rfl

/-! R230 to R236: the data branch. -/

/-- R173: where the header of a payload that decodes has its address, its counter and the length of its options. -/
theorem macDec_ok_header {p : List Byte} {m : MacPayload} (h : macDec p = .ok m) :
    p.take 4 = m.addr.toList.reverse ∧ m.fcnt16 = u16le (p.getD 5 0) (p.getD 6 0) ∧
      7 + (p.getD 4 0).toNat % 16 ≤ p.length := by
  obtain ⟨_, _, _, _, c, _, _, rest, rfl, hopts, rfl⟩ := macDec_ok h
  rw [optsLength_eq] at hopts
  refine ⟨rfl, rfl, ?_⟩
  simp only [List.length_cons, List.getD_cons_succ, List.getD_cons_zero]
  omega

/-- R203: a frame below the stored counter has no row. -/
theorem DataOutcome.stored_le {s t : State} {acc stored : U32} (h : DataOutcome s acc stored t) :
    stored.toNat ≤ acc.toNat := by
  cases h with
  | replaySilent heq | replayAnswered heq => rw [heq]
  | freshSilent hclass | freshAnswered hclass => exact le_of_fresh hclass

theorem storedAfterReset_of_not {acc : U32} {ra : Bool} {record : Session} (h : ¬ (acc = 0 ∧ ra = true)) :
    storedAfterReset acc ra record = record.fcntUp :=
  if_neg (mt resetForced_eq_true.mp h)

/-- R230 to R235: what a data frame has met that is not dropped. -/
theorem receive_data_ok {t : FrameType} (hdata : t.isData = true) {payload : List Byte} {tag : Bytes4} {rssi : U16}
    {ra : Bool} {s u : State} (h : receive (frmEnc t.toByte payload tag) rssi ra s = .ok u) :
    s.sessionValid = true ∧ 7 + (payload.getD 4 0).toNat % 16 ≤ payload.length ∧
      payload.take 4 = s.session.devAddr.toList.reverse ∧
      ∃ acc, accept (fcntCand (u16le (payload.getD 5 0) (payload.getD 6 0)) s.session.fcntUp ra) s.session.nwkSKey t.dir
          s.session.devAddr (t.toByte :: payload) tag = some acc ∧
        u = { s with session := u.session, events := u.events } ∧
        DataOutcome s acc (storedAfterReset acc ra s.session) u := by
  obtain ⟨f, hf, hbranch⟩ := receive_ok h
  obtain ⟨rfl, _, hmax⟩ := frmDec_frmEnc_ok hf
  obtain ⟨htype, _⟩ | ⟨_, hpath⟩ := hbranch
  · have htype : t = .joinRequest := htype
    rw [htype] at hdata
    cases hdata
  · obtain ⟨m, acc, hvalid, hdec, haddr, hacc, hframe, houtcome⟩ := dataPath_outcome hpath hmax
    obtain ⟨hhead, hfcnt, hopts⟩ := macDec_ok_header hdec
    rw [haddr] at hhead
    rw [hfcnt] at hacc
    exact ⟨hvalid, hopts, hhead, acc, hacc, hframe, houtcome⟩

/-- Settles O35: every cause contradicts `receive_data_ok`. -/
theorem dataBranchDrops : Obligations.DataBranchDrops := by
  intro t payload tag rssi ra s hdata hrssi dropped cands matching
  have hdrop (h : ∀ u, receive (frmEnc t.toByte payload tag) rssi ra s ≠ .ok u) :
      exec (frameInstr t payload tag rssi ra) s = dropped :=
    (exec_frameInstr t payload tag rssi ra s).trans (runFrame_dropped hrssi h)
  refine ⟨fun hno => hdrop fun u hu => ?_, fun hshort => hdrop fun u hu => ?_, fun hother => hdrop fun u hu => ?_,
    fun hnone => hdrop fun u hu => ?_, fun acc hacc hforced hlt => hdrop fun u hu => ?_⟩
  all_goals obtain ⟨hvalid, hopts, haddr, acc', hacc', _, houtcome⟩ := receive_data_ok hdata hu
  · rw [hno] at hvalid
    cases hvalid
  · omega
  · exact hother haddr
  · rw [accept_eq_none_iff.mpr hnone] at hacc'
    cases hacc'
  · rw [hacc] at hacc'
    cases hacc'
    have hle := houtcome.stored_le
    rw [storedAfterReset_of_not hforced] at hle
    omega

/-- Settles O36: after the reset 0 is compared with 0, which is fresh. -/
theorem forcedResetIsNeverStale : Obligations.ForcedResetIsNeverStale := by
  intro acc sc hforced
  obtain ⟨rfl, _⟩ := resetForced_eq_true.mp hforced
  exact ⟨(sc.1.withFcntUp 0, { sc.2 with dirty := true }), by rw [forceReset_of hforced]; rfl, rfl, rfl, rfl⟩

/-- R235: a counter that is the stored one and not 0 has the rows of a replay only. -/
theorem DataOutcome.of_replay {s u : State} {ra : Bool} (hne : s.session.fcntUp ≠ 0)
    (h : DataOutcome s s.session.fcntUp (storedAfterReset s.session.fcntUp ra s.session) u) :
    (u.session = s.session ∧ u.events = s.events) ∨
    (u.session = { s.session with fcntDown := s.session.fcntDown + 1 } ∧
      ∃ bytes len, u.events = s.events ++ [.emit bytes len 1000, .save u.session]) := by
  rw [storedAfterReset_of_not fun hforced => hne hforced.1] at h
  have hnotFresh : fcntClass s.session.fcntUp s.session.fcntUp ≠ .fresh := by
    rw [fcntClass_self fun h0 => hne (BitVec.eq_of_toNat_eq h0)]
    exact nofun
  cases h with
  | replaySilent _ _ hsession hevents => exact .inl ⟨hsession, hevents⟩
  | replayAnswered _ _ hsession _ hevents => exact .inr ⟨hsession, _, _, hevents⟩
  | freshSilent hclass | freshAnswered hclass => exact absurd hclass hnotFresh

/-- Settles O42: the frame is dropped, or it is in one of the two rows of a replay. -/
theorem replayIsNotDelivered : Obligations.ReplayIsNotDelivered := by
  intro t payload tag rssi ra s u hdata hacc hne h
  obtain rfl | ⟨v, hv, rfl⟩ := (Receives.frameType t payload tag rssi ra).exec_next h
  · exact ⟨[], by simp, nofun, rfl, .inl ⟨rfl, rfl⟩⟩
  · obtain ⟨_, _, _, acc, hacc', _, houtcome⟩ := receive_data_ok hdata hv
    rw [hacc] at hacc'
    cases hacc'
    obtain ⟨hsession, hevents⟩ | ⟨hsession, bytes, len, hevents⟩ := houtcome.of_replay hne
    · exact ⟨[], by simpa using hevents, nofun, by simp [hsession], .inl ⟨rfl, hsession⟩⟩
    · exact ⟨_, hevents, by simp, by simp [hsession], .inr ⟨hsession, bytes, len, rfl⟩⟩

end Sys2Proof.Machine
end

section
/-! PROOFS. The operand checks that fail (spec/60_exceptions.md R266 rows 2 to 5), each by the name that it gives. -/

namespace Sys2Proof.Machine

theorem need_of_not {ok : Bool} {e : IllFormed} (h : ¬ ok = true) : need ok e = some e := if_neg h

/-- R40: an operand above its capacity. -/
theorem needLen_of_gt {cap : Nat} {B : List Byte} {e : IllFormed} (h : cap < B.length) : needLen cap B e = some e :=
  need_of_not (by rw [decide_eq_true_iff]; exact not_le.mpr h)

/-- R64: `dir` is neither 0 nor 1. -/
theorem needDir_of_ne {dir : Byte} (h0 : dir ≠ 0) (h1 : dir ≠ 1) : needDir dir = some .badDir :=
  need_of_not (by simpa using ⟨h0, h1⟩)

/-- R40: the `msg` of CMAC.TAG and MIC.PLAIN. -/
theorem checkMsg_of_gt {msg : List Byte} (h : 255 < msg.length) : checkMsg msg = some .varTooLong := needLen_of_gt h

/-- R138: MIC.DATA and MIC.CHECK, the direction first. -/
theorem checkMicData_of_badDir {dir : Byte} (h0 : dir ≠ 0) (h1 : dir ≠ 1) (msg : List Byte) :
    checkMicData dir msg = some .badDir := by
  rw [checkMicData, needDir_of_ne h0 h1, Option.some_or]

theorem checkMicData_of_gt {dir : Byte} {msg : List Byte} (hdir : dir = 0 ∨ dir = 1) (h : 239 < msg.length) :
    checkMicData dir msg = some .msgTooLong := by
  rw [checkMicData, needDir_eq_none.mpr hdir, Option.none_or]
  exact needLen_of_gt h

/-- R152: CTR.APPLY, the direction first. -/
theorem checkCtr_of_badDir {dir : Byte} (h0 : dir ≠ 0) (h1 : dir ≠ 1) (data : List Byte) :
    checkCtr dir data = some .badDir := by
  rw [checkCtr, needDir_of_ne h0 h1, Option.some_or]

theorem checkCtr_of_gt {dir : Byte} {data : List Byte} (hdir : dir = 0 ∨ dir = 1) (h : 255 < data.length) :
    checkCtr dir data = some .varTooLong := by
  rw [checkCtr, needDir_eq_none.mpr hdir, Option.none_or]
  exact needLen_of_gt h

/-- R161: `flavor` is neither 0x01 nor 0x02. -/
theorem checkFlavor_of_ne {flavor : Byte} (h1 : flavor ≠ 1) (h2 : flavor ≠ 2) :
    checkFlavor flavor = some .badFlavor :=
  need_of_not (by simpa using ⟨h1, h2⟩)

end Sys2Proof.Machine
end

section
/-! PROOFS. The cipher commands (spec/40_block_cipher.md R116, spec/41_cmac.md R133 to R139, spec/42_ctr_cipher.md R152,
spec/43_key_derivation.md R161): what each answers, and what it refuses. -/

namespace Sys2Proof.Machine

/-! R100, R110, R116: the block cipher. -/

/-- Settles O5: both directions of the inverse. -/
theorem aesTransformsAreInverse : Obligations.AesTransformsAreInverse :=
  fun key blk => ⟨aesDec_aesEnc key blk, aesEnc_aesDec key blk⟩

/-- R61, R100: AES.ENC answers the encrypted block. -/
theorem exec_aesEnc (key blk : Block) (s : State) :
    exec (.aesEnc key blk) s = .next { s with response := 0x00 :: (aesEnc key blk).toList } := reply_eq _ s

/-- R61, R110: AES.DEC answers the decrypted block. -/
theorem exec_aesDec (key blk : Block) (s : State) :
    exec (.aesDec key blk) s = .next { s with response := 0x00 :: (aesDec key blk).toList } := reply_eq _ s

/-- Settles O6: neither command has a check, and the transforms are mutual inverses. -/
theorem aesCommandsAnswerAndRecover : Obligations.AesCommandsAnswerAndRecover := by
  intro key blk s
  refine ⟨exec_aesEnc key blk s, exec_aesDec key blk s, ?_, ?_⟩
  · rw [exec_aesDec, aesDec_aesEnc]
  · rw [exec_aesEnc, aesEnc_aesDec]

/-! R133, R134: the blocks of a message and the chain over them. -/

theorem cmacBlockCount_of_le {n : Nat} (h : n ≤ 16) : cmacBlockCount n = 1 := by
  unfold cmacBlockCount
  split <;> omega

theorem cmacBlockCount_add {n : Nat} (h : 0 < n) : cmacBlockCount (16 + n) = cmacBlockCount n + 1 := by
  unfold cmacBlockCount
  split <;> split <;> omega

theorem cmacBlockCount_pos (n : Nat) : 0 < cmacBlockCount n := by
  unfold cmacBlockCount
  split <;> omega

/-- R133: at most 16 bytes are one block, which is the last one. -/
theorem cmacFrom_of_le (key X : Block) {msg : List Byte} (h : msg.length ≤ 16) :
    cmacFrom key X msg = aesEnc key (X.xor (cmacLastBlock key msg)) := by
  simp [cmacFrom, cmacBlocks, cmacBlockCount_of_le h, cmacStep]

/-- R8: the slice of the whole string. -/
theorem slice_zero_length (B : List Byte) : slice B 0 B.length = B := List.take_length

/-- R133: the last block of 16 bytes. -/
theorem cmacLastBlock_of_eq (key : Block) {msg : List Byte} (h : msg.length = 16) :
    cmacLastBlock key msg = (Block.ofBytes msg).xor (subkey1 key) := by
  have hfull : msg.length > 0 ∧ msg.length % 16 = 0 := by omega
  simp only [cmacLastBlock, if_pos hfull, cmacBlockCount_of_le h.le, Nat.sub_self, Nat.mul_zero, slice_zero_length]

/-- R133: the last block of fewer, padded. -/
theorem cmacLastBlock_of_lt (key : Block) {msg : List Byte} (h : msg.length < 16) :
    cmacLastBlock key msg =
      (Block.ofBytes (msg ++ 0x80 :: List.replicate (15 - msg.length) 0)).xor (subkey2 key) := by
  have hpartial : ¬ (msg.length > 0 ∧ msg.length = 0) := by omega
  simp only [cmacLastBlock, Nat.mod_eq_of_lt h, if_neg hpartial, cmacBlockCount_of_le h.le, Nat.sub_self,
    Nat.mul_zero, slice_zero_length, List.append_assoc, List.singleton_append]
  rfl

/-- R8: a slice behind the first 16 bytes. -/
theorem slice_append {head : List Byte} (h : head.length = 16) (rest : List Byte) (i j : Nat) :
    slice (head ++ rest) (16 + i) (16 + j) = slice rest i j := by
  simp only [slice, ← h, List.drop_length_add_append, Nat.add_sub_add_left]

/-- R133: the last block is that of the bytes behind a whole block. -/
theorem cmacLastBlock_append (key : Block) {head rest : List Byte} (h : head.length = 16) (hrest : 0 < rest.length) :
    cmacLastBlock key (head ++ rest) = cmacLastBlock key rest := by
  have hpos := cmacBlockCount_pos rest.length
  have hstart : 16 * (cmacBlockCount rest.length + 1 - 1) = 16 + 16 * (cmacBlockCount rest.length - 1) := by omega
  simp only [cmacLastBlock, List.length_append, h, cmacBlockCount_add hrest, hstart, slice_append h,
    Nat.add_mod_left, hrest, Nat.add_pos_right 16 hrest]

/-- R133: a whole block with more behind it comes first. -/
theorem cmacBlocks_append (key : Block) {head rest : List Byte} (h : head.length = 16) (hrest : 0 < rest.length) :
    cmacBlocks key (head ++ rest) = Block.ofBytes head :: cmacBlocks key rest := by
  have hfirst : slice (head ++ rest) (16 * 0) (16 * 0 + 16) = head := by simp [slice, ← h]
  have hnext (j : Nat) :
      slice (head ++ rest) (16 * (j + 1)) (16 * (j + 1) + 16) = slice rest (16 * j) (16 * j + 16) := by
    rw [show 16 * (j + 1) = 16 + 16 * j by omega, Nat.add_assoc, slice_append h]
  have hcount : cmacBlockCount (16 + rest.length) - 1 = cmacBlockCount rest.length - 1 + 1 := by
    have := cmacBlockCount_pos rest.length
    rw [cmacBlockCount_add hrest]
    omega
  simp only [cmacBlocks, cmacLastBlock_append key h hrest, List.length_append, h, hcount, List.range_succ_eq_map,
    List.map_cons, List.map_map, Function.comp_def, hfirst, hnext, Nat.succ_eq_add_one, List.cons_append]

/-- Settles O8: one block of either kind, or a first block and the chain over the rest. -/
theorem cmacChainsBlockByBlock : Obligations.CmacChainsBlockByBlock := by
  refine ⟨fun key X msg h => ?_, fun key X msg h => ?_, fun key X head rest h hrest => ?_, fun _ _ => rfl⟩
  · rw [cmacFrom_of_le key X h.le, cmacLastBlock_of_eq key h]
    rfl
  · rw [cmacFrom_of_le key X h.le, cmacLastBlock_of_lt key h]
    rfl
  · rw [cmacFrom, cmacBlocks_append key h (List.length_pos_iff.mpr hrest)]
    rfl

/-! R134 to R139: the tag commands. -/

theorem exec_cmacTag (key : Block) (msg : List Byte) (s : State) :
    exec (.cmacTag key msg) s =
      require (checkMsg msg) (.next { s with response := 0x00 :: (cmac key msg).toList }) := rfl

theorem exec_micPlain (key : Block) (msg : List Byte) (s : State) :
    exec (.micPlain key msg) s =
      require (checkMsg msg) (.next { s with response := 0x00 :: (cmac key msg).toList.take 4 }) := rfl

/-- Settles O9: the one check of the two commands passes or names the message. -/
theorem plainTagCommandsAnswer : Obligations.PlainTagCommandsAnswer := by
  intro key msg s
  rw [exec_cmacTag, exec_micPlain]
  refine ⟨fun hlen => ?_, fun hlong => ?_⟩
  · rw [checkMsg_eq_none.mpr hlen]
    exact ⟨rfl, rfl⟩
  · rw [checkMsg_of_gt hlong]
    exact ⟨rfl, rfl⟩

theorem exec_micData (key : Block) (cnt : U32) (dir : Byte) (addr : Bytes4) (msg : List Byte) (s : State) :
    exec (.micData key cnt dir addr msg) s = require (checkMicData dir msg)
      (.next { s with response := 0x00 :: (micData key cnt (dirOf dir) addr msg).toList }) := rfl

/-- R139: MIC.CHECK answers by the tag that MIC.DATA would answer. -/
theorem exec_micCheck (key : Block) (cnt : U32) (dir : Byte) (addr mic : Bytes4) (msg : List Byte) (s : State) :
    exec (.micCheck key cnt dir addr mic msg) s = require (checkMicData dir msg)
      (.next { s with response := [if mic = micData key cnt (dirOf dir) addr msg then 0x00 else 0x01] }) := by
  change require _ (checkReply (micCheck key cnt (dirOf dir) addr mic msg) s) = _
  unfold micCheck
  by_cases h : micData key cnt (dirOf dir) addr msg = mic
  · rw [if_pos h, if_pos h.symm]
    rfl
  · rw [if_neg h, if_neg (Ne.symm h)]
    rfl

theorem exec_ctrApply (key : Block) (cnt : U32) (dir : Byte) (addr : Bytes4) (data : List Byte) (s : State) :
    exec (.ctrApply key cnt dir addr data) s = require (checkCtr dir data)
      (.next { s with response := 0x00 :: varBytes (ctr data cnt addr key (dirOf dir)) }) := rfl

/-- R64: a legal direction byte is the byte of the direction that it stands for. -/
theorem dirOf_toByte {dir : Byte} (h : dir = 0 ∨ dir = 1) : (dirOf dir).toByte = dir := by
  obtain rfl | rfl := h <;> rfl

/-- R79, R137, R138: the tag, with the block before the message written out. -/
theorem micData_toList {dir : Byte} (hdir : dir = 0 ∨ dir = 1) (key : Block) (cnt : U32) (addr : Bytes4)
    (msg : List Byte) :
    (micData key cnt (dirOf dir) addr msg).toList = (cmac key
      ([0x49, 0, 0, 0, 0, dir, addr.b3, addr.b2, addr.b1, addr.b0, BitVec.ofNat 8 cnt.toNat,
        BitVec.ofNat 8 (cnt.toNat / 2 ^ 8), BitVec.ofNat 8 (cnt.toNat / 2 ^ 16), BitVec.ofNat 8 (cnt.toNat / 2 ^ 24),
        0, BitVec.ofNat 8 msg.length] ++ msg)).toList.take 4 := by
  rw [micData, truncateTag_toList, micPrefixBlock_eq, dirOf_toByte hdir, le32_eq]
  rfl

/-- Settles O10: the check passes, and the tag is that of `micData_toList`. -/
theorem dataTagCommandsAgree : Obligations.DataTagCommandsAgree := by
  intro key cnt dir addr mic msg s hdir hlen B0 tag
  have htag : (micData key cnt (dirOf dir) addr msg).toList = tag := micData_toList hdir key cnt addr msg
  rw [exec_micData, exec_micCheck, checkMicData_eq_none.mpr ⟨hdir, hlen⟩, ← htag]
  simp only [require_none, Bytes4.toList_inj, and_self]

/-- Settles O11: the check of the direction comes first, that of the length second. -/
theorem tagAndKeystreamRefusals : Obligations.TagAndKeystreamRefusals := by
  intro key cnt dir addr mic msg s
  rw [exec_micData, exec_micCheck, exec_ctrApply]
  refine ⟨fun h0 h1 => ?_, fun hdir hlong => ?_, fun hdir hlong => ?_⟩
  · rw [checkMicData_of_badDir h0 h1, checkCtr_of_badDir h0 h1]
    exact ⟨rfl, rfl, rfl⟩
  · rw [checkMicData_of_gt hdir hlong]
    exact ⟨rfl, rfl⟩
  · rw [checkCtr_of_gt hdir hlong, require_some]

/-! R152, R161: the keystream cipher and the key derivation. -/

/-- Settles O14: the check passes for the data and for the answer, which is as long; the cipher is its own inverse. -/
theorem ctrApplyAnswersAndUndoesItself : Obligations.CtrApplyAnswersAndUndoesItself := by
  intro key cnt dir addr data s hdir hlen out
  have hout : out.length = data.length := ctr_length ..
  refine ⟨hout, ?_, ?_⟩
  · rw [exec_ctrApply, checkCtr_eq_none.mpr ⟨hdir, hlen⟩, require_none, varBytes, ctr_length]
    rfl
  · rw [exec_ctrApply, checkCtr_eq_none.mpr ⟨hdir, hout.trans_le hlen⟩, require_none]
    rw [show ctr out cnt addr key (dirOf dir) = data from keystreamIsSelfInverse data cnt addr key (dirOf dir)]
    rfl

theorem exec_kdfDerive (flavor : Byte) (root : Block) (joinNonce netId : Bytes3) (devNonce : Bytes2) (s : State) :
    exec (.kdfDerive flavor root joinNonce netId devNonce) s = require (checkFlavor flavor)
      (.next { s with response := 0x00 :: (kdf (flavorOf flavor) root joinNonce netId devNonce).toList }) := rfl

/-- R109: the encryption under one key is injective. -/
theorem aesEnc_injective (key : Block) : Function.Injective (aesEnc key) :=
  Function.LeftInverse.injective (aesDec_aesEnc key)

/-- Settles O15: the derivation blocks differ in their flavor byte, and the encryption is injective. -/
theorem keyDerivationByFlavor : Obligations.KeyDerivationByFlavor := by
  intro root joinNonce netId devNonce s key
  refine ⟨rfl, rfl, fun heq => ?_, fun flavor h1 h2 => ?_⟩
  · have hblocks := aesEnc_injective root heq
    simp at hblocks
  · rw [exec_kdfDerive, checkFlavor_of_ne h1 h2, require_some]

end Sys2Proof.Machine
end

section
/-! PROOFS. The wire codecs and their commands (spec/44_wire_codecs.md R171 to R178): the MAC payload both ways, then
what FRM.ENC, MAC.ENC, MAC.DEC and JREQ.DEC answer and refuse. -/

namespace Sys2Proof.Machine

/-! R72: the control byte. -/

/-- R72: options length and flags are read back from the byte that they make up. -/
theorem controlByte_fields : ∀ (n : Fin 16) (pending ack adrAckReq adr : Bool),
    let c := BitVec.ofNat 8 n ||| flagBits pending ack adrAckReq adr
    optsLength c = n ∧ c.getLsbD 4 = pending ∧ c.getLsbD 5 = ack ∧ c.getLsbD 6 = adrAckReq ∧ c.getLsbD 7 = adr := by
  decide +kernel

/-- R72: every control byte is made up of the options length and the flags that are read from it. -/
theorem controlByte_of_fields : ∀ c : Byte, BitVec.ofNat 8 (optsLength c) |||
    flagBits (c.getLsbD 4) (c.getLsbD 5) (c.getLsbD 6) (c.getLsbD 7) = c := by
  decide +kernel

/-- R64: a `flags` operand with bits 3:0 zero is its four flags. -/
theorem flagBits_of_flags : ∀ flags : Byte, flags &&& 0x0F = 0 →
    flagBits (flags.getLsbD 4) (flags.getLsbD 5) (flags.getLsbD 6) (flags.getLsbD 7) = flags := by
  decide +kernel

theorem ofNat_and_low : ∀ n : Fin 16, (0x0F : Byte) &&& BitVec.ofNat 8 n = BitVec.ofNat 8 n := by decide

/-- R72: the options length and such flags share no bit, so their sum is the control byte. -/
theorem flags_add_optsLength {flags : Byte} {n : Nat} (hflags : flags &&& 0x0F = 0) (hn : n ≤ 15) :
    flags + BitVec.ofNat 8 n = BitVec.ofNat 8 n ||| flags := by
  have hlow := ofNat_and_low ⟨n, by omega⟩
  have hdisjoint : flags &&& BitVec.ofNat 8 n = 0 := by
    rw [← hlow, ← BitVec.and_assoc, hflags]
    exact BitVec.zero_and
  rw [BitVec.add_eq_or_of_and_eq_zero _ _ hdisjoint, BitVec.or_comm]

/-! R173, R174, R175: the MAC payload. -/

/-- R173: a payload whose options are present decodes. -/
theorem macDec_cons (a3 a2 a1 a0 c x y : Byte) {rest : List Byte} (h : optsLength c ≤ rest.length) :
    macDec (a3 :: a2 :: a1 :: a0 :: c :: x :: y :: rest) = .ok
      { addr := ⟨a0, a1, a2, a3⟩, pending := c.getLsbD 4, ack := c.getLsbD 5, adrAckReq := c.getLsbD 6
        adr := c.getLsbD 7, fcnt16 := u16le x y, opts := rest.take (optsLength c)
        port := (rest.drop (optsLength c)).head?, app := (rest.drop (optsLength c)).tail } := by
  cases hdec : macDec (a3 :: a2 :: a1 :: a0 :: c :: x :: y :: rest) with
  | ok m =>
    obtain ⟨_, _, _, _, _, _, _, _, heq, _, rfl⟩ := macDec_ok hdec
    cases heq
    rfl
  | error e =>
    have hc : byteAt (a3 :: a2 :: a1 :: a0 :: c :: x :: y :: rest) 4 = c := rfl
    have herror := macDec_error.mp hdec
    simp only [hc, List.length_cons] at herror
    omega

/-- R174: the port bytes begin with the port, where there is one. -/
theorem portBytes_head? (m : MacPayload) : m.portBytes.head? = m.port := by
  unfold MacPayload.portBytes
  split <;> simp_all

/-- R172, R174: behind the port stands the application payload. -/
theorem portBytes_tail {m : MacPayload} (h : m.port = none → m.app = []) : m.portBytes.tail = m.app := by
  unfold MacPayload.portBytes
  split <;> simp_all

/-- R175 (1): a record is read back from its encoding. -/
theorem macDec_macEnc {m : MacPayload} (hportless : m.port = none → m.app = []) (hopts : m.opts.length ≤ 15) :
    macDec (macEnc m) = .ok m := by
  obtain ⟨hlen, hpending, hack, hadrAckReq, hadr⟩ :=
    controlByte_fields ⟨m.opts.length, by omega⟩ m.pending m.ack m.adrAckReq m.adr
  have hlen : optsLength m.controlByte = m.opts.length := hlen
  have henc : macEnc m = m.addr.b3 :: m.addr.b2 :: m.addr.b1 :: m.addr.b0 :: m.controlByte ::
      m.fcnt16.extractLsb' 0 8 :: m.fcnt16.extractLsb' 8 8 :: (m.opts ++ m.portBytes) := rfl
  rw [henc, macDec_cons _ _ _ _ _ _ _ (by simp [hlen]), hlen, List.take_left, List.drop_left, u16le_le16,
    portBytes_head?, portBytes_tail hportless]
  simp only [MacPayload.controlByte, MacPayload.flags, hpending, hack, hadrAckReq, hadr]

/-- Settles O16: `macDec_macEnc`; the decoder needs no bound on the whole. -/
theorem macRecordIsReadBack : Obligations.MacRecordIsReadBack :=
  fun _ hportless hopts _ => macDec_macEnc hportless hopts

/-- R172: what stands behind the options is the port and the application payload, or nothing. -/
theorem portBytes_of_head?_tail {m : MacPayload} {B : List Byte} (hport : m.port = B.head?) (happ : m.app = B.tail) :
    m.portBytes = B := by
  cases B with
  | nil => simp [MacPayload.portBytes, hport]
  | cons b rest => simp [MacPayload.portBytes, hport, happ]

/-- Settles O17: the fields of `macDec_ok`, put back in their places. -/
theorem macPayloadIsWrittenBack : Obligations.MacPayloadIsWrittenBack := by
  intro p m h
  obtain ⟨a3, a2, a1, a0, c, x, y, rest, rfl, hopts, rfl⟩ := macDec_ok h
  have hlen : (rest.take (optsLength c)).length = optsLength c := List.length_take_of_le hopts
  refine ⟨?_, fun hport => ?_, ?_⟩
  · rw [macEnc, portBytes_of_head?_tail (B := rest.drop (optsLength c)) rfl rfl, MacPayload.controlByte,
      MacPayload.flags, hlen, controlByte_of_fields, le16_u16le, List.append_assoc, List.take_append_drop]
    rfl
  · have hnone : rest.drop (optsLength c) = [] := List.head?_eq_none_iff.mp hport
    simp only [hnone, List.tail_nil]
  · rw [hlen, optsLength_eq]
    omega

/-! R64, R171, R178: the commands. -/

theorem exec_frmEnc (type : Byte) (payload : List Byte) (tag : Bytes4) (s : State) :
    exec (.frmEnc type payload tag) s = require (checkFrmEnc payload)
      (.next { s with response := 0x00 :: varBytes (frmEnc type payload tag) }) := rfl

/-- R171: a payload under 7 bytes. -/
theorem checkFrmEnc_of_lt {payload : List Byte} (h : payload.length < 7) :
    checkFrmEnc payload = some .payloadTooShort := by
  have hmax : payload.length ≤ framePayloadMax := h.le.trans (by decide)
  rw [checkFrmEnc, needLen_eq_none.mpr hmax, Option.none_or]
  exact need_of_not (by rw [decide_eq_true_iff]; exact not_le.mpr h)

/-- R178: a payload above 59 bytes. -/
theorem checkFrmEnc_of_gt {payload : List Byte} (h : 59 < payload.length) :
    checkFrmEnc payload = some .payloadTooLong := by
  rw [checkFrmEnc, needLen_of_gt (cap := framePayloadMax) h, Option.some_or]

/-- Settles O20: the two bounds of the payload, the upper one checked first. -/
theorem frameEncodeAnswers : Obligations.FrameEncodeAnswers := by
  intro type payload tag s
  rw [exec_frmEnc]
  refine ⟨fun hmin hmax => ?_, fun hshort => ?_, fun hlong => ?_⟩
  · rw [checkFrmEnc_eq_none.mpr ⟨hmin, hmax⟩, require_none, varBytes, frmEnc_length]
    rfl
  · rw [checkFrmEnc_of_lt hshort, require_some]
  · rw [checkFrmEnc_of_gt hlong, require_some]

theorem exec_macEnc (addr : Bytes4) (flags : Byte) (fcnt16 : U16) (opts : List Byte) (hasPort : Bool) (port : Byte)
    (app : List Byte) (s : State) :
    exec (.macEnc addr flags fcnt16 opts hasPort port app) s =
      require (checkMacEnc addr flags fcnt16 opts hasPort port app)
        (.next { s with
          response := 0x00 :: varBytes (macEnc (macOperand addr flags fcnt16 opts hasPort port app)) }) := rfl

/-- R64: the operands of a record that MAC.ENC takes are what MAC.DEC answers for it. -/
theorem macResults_macOperand {flags : Byte} {hasPort : Bool} {port : Byte} {app : List Byte}
    (hflags : flags &&& 0x0F = 0) (hportless : hasPort = false → port = 0 ∧ app = []) (addr : Bytes4) (fcnt16 : U16)
    (opts : List Byte) :
    macResults (macOperand addr flags fcnt16 opts hasPort port app) =
      addr.toList ++ [flags] ++ le16 fcnt16 ++ varBytes opts ++ [flagByte hasPort] ++ [port] ++ varBytes app := by
  have hflags : (macOperand addr flags fcnt16 opts hasPort port app).flags = flags := flagBits_of_flags flags hflags
  rw [macResults, hflags]
  cases hasPort with
  | true => rfl
  | false =>
    obtain ⟨rfl, rfl⟩ := hportless rfl
    rfl

/-- R72, R174: the record laid out byte by byte. -/
theorem macEnc_macOperand {flags : Byte} {opts : List Byte} (hflags : flags &&& 0x0F = 0) (hopts : opts.length ≤ 15)
    (addr : Bytes4) (fcnt16 : U16) (hasPort : Bool) (port : Byte) (app : List Byte) :
    macEnc (macOperand addr flags fcnt16 opts hasPort port app) =
      [addr.b3, addr.b2, addr.b1, addr.b0, flags + BitVec.ofNat 8 opts.length, BitVec.ofNat 8 fcnt16.toNat,
        BitVec.ofNat 8 (fcnt16.toNat / 256)] ++ opts ++ (if hasPort then port :: app else []) := by
  have hcontrol : (macOperand addr flags fcnt16 opts hasPort port app).controlByte =
      flags + BitVec.ofNat 8 opts.length := by
    rw [flags_add_optsLength hflags hopts]
    exact congrArg (BitVec.ofNat 8 opts.length ||| ·) (flagBits_of_flags flags hflags)
  have hport : (macOperand addr flags fcnt16 opts hasPort port app).portBytes =
      if hasPort then port :: app else [] := by
    cases hasPort <;> rfl
  have hcounter : le16 (macOperand addr flags fcnt16 opts hasPort port app).fcnt16 = _ := le16_eq fcnt16
  rw [macEnc, hcontrol, hport, hcounter]
  rfl

/-- R40, R173: up to 59 bytes MAC.DEC answers what the inner decoder does. -/
theorem exec_macDec {p : List Byte} (h : p.length ≤ 59) (s : State) :
    exec (.macDec p) s = checkReply ((macDec p).map macResults) s := by
  change require (checkPayload p) _ = _
  rw [checkPayload_eq_none.mpr h, require_none]

/-- R40, R176: up to 59 bytes JREQ.DEC answers what its decoder does. -/
theorem exec_jreqDec {p : List Byte} (h : p.length ≤ 59) (s : State) :
    exec (.jreqDec p) s = checkReply ((jreqDec p).map joinRequestResults) s := by
  change require (checkPayload p) _ = _
  rw [checkPayload_eq_none.mpr h, require_none]

/-- R40: the `payload` of MAC.DEC and JREQ.DEC. -/
theorem checkPayload_of_gt {payload : List Byte} (h : 59 < payload.length) :
    checkPayload payload = some .payloadTooLong := needLen_of_gt h

/-! R64, R174, R178: the operands that MAC.ENC refuses, in the order of its checks. -/

section

variable {addr : Bytes4} {flags : Byte} {fcnt16 : U16} {opts : List Byte} {hasPort : Bool} {port : Byte}
  {app : List Byte}

theorem checkMacEnc_of_badFlags (h : flags &&& 0x0F ≠ 0) :
    checkMacEnc addr flags fcnt16 opts hasPort port app = some .badFlags := by
  rw [checkMacEnc, need_of_not (mt beq_iff_eq.mp h), Option.some_or]

theorem checkMacEnc_of_optsTooLong (hflags : flags &&& 0x0F = 0) (h : 15 < opts.length) :
    checkMacEnc addr flags fcnt16 opts hasPort port app = some .optsTooLong := by
  rw [checkMacEnc, need_eq_none.mpr (beq_iff_eq.mpr hflags), Option.none_or, needLen_of_gt (cap := optsMax) h,
    Option.some_or]

/-- R172: what the third check asks for. -/
theorem portless_iff :
    (hasPort || (port == 0x00 && app.isEmpty)) = true ↔ (hasPort = false → port = 0 ∧ app = []) := by
  cases hasPort <;> simp

theorem checkMacEnc_of_portlessApp (hflags : flags &&& 0x0F = 0) (hopts : opts.length ≤ 15)
    (h : ¬ (hasPort = false → port = 0 ∧ app = [])) :
    checkMacEnc addr flags fcnt16 opts hasPort port app = some .portlessApp := by
  have hopts : needLen optsMax opts .optsTooLong = none := needLen_eq_none.mpr hopts
  rw [checkMacEnc, need_eq_none.mpr (beq_iff_eq.mpr hflags), Option.none_or, hopts, Option.none_or,
    need_of_not (mt portless_iff.mp h), Option.some_or]

theorem macOperand_encodedLength : (macOperand addr flags fcnt16 opts hasPort port app).encodedLength =
    7 + opts.length + (if hasPort then 1 + app.length else 0) := by
  cases hasPort <;> rfl

theorem checkMacEnc_of_encodedTooLong (hflags : flags &&& 0x0F = 0) (hopts : opts.length ≤ 15)
    (hportless : hasPort = false → port = 0 ∧ app = [])
    (h : 59 < 7 + opts.length + (if hasPort then 1 + app.length else 0)) :
    checkMacEnc addr flags fcnt16 opts hasPort port app = some .encodedTooLong := by
  have hopts : needLen optsMax opts .optsTooLong = none := needLen_eq_none.mpr hopts
  have hlong :
      ¬ decide ((macOperand addr flags fcnt16 opts hasPort port app).encodedLength ≤ framePayloadMax) = true := by
    rw [decide_eq_true_iff, macOperand_encodedLength]
    exact not_le.mpr h
  rw [checkMacEnc, need_eq_none.mpr (beq_iff_eq.mpr hflags), Option.none_or, hopts, Option.none_or,
    need_eq_none.mpr (portless_iff.mpr hportless), Option.none_or, need_of_not hlong]

end

/-- Settles O21: the payload is the encoding of the operands' record, which is read back; the refusals are the checks of
MAC.ENC in their order. -/
theorem macCommandsAreMutual : Obligations.MacCommandsAreMutual := by
  intro addr flags fcnt16 opts hasPort port app s size encoded
  have hencoded : encoded = _ := exec_macEnc addr flags fcnt16 opts hasPort port app s
  rw [hencoded]
  refine ⟨fun hflags hopts hportless hsize => ?_, fun h => ?_, fun hflags h => ?_, fun hflags hopts hport h => ?_,
    fun hflags hopts hportless h => ?_⟩
  · intro p
    have hp : macEnc (macOperand addr flags fcnt16 opts hasPort port app) = p :=
      macEnc_macOperand hflags hopts addr fcnt16 hasPort port app
    have hlen : p.length ≤ 59 := by rw [← hp, macEnc_length, macOperand_encodedLength]; exact hsize
    have hdec : macDec p = .ok (macOperand addr flags fcnt16 opts hasPort port app) := by
      rw [← hp]
      refine macDec_macEnc (fun hport => ?_) hopts
      cases hasPort with
      | true => cases hport
      | false => exact (hportless rfl).2
    have hcheck : checkMacEnc addr flags fcnt16 opts hasPort port app = none :=
      checkMacEnc_eq_none.mpr ⟨hflags, hopts, (Bool.eq_false_or_eq_true hasPort).imp_right hportless, hsize⟩
    refine ⟨by rw [hcheck, hp]; rfl, ?_⟩
    rw [exec_macDec hlen, hdec, Except.map, checkReply_ok, macResults_macOperand hflags hportless, le16_eq]
    simp [varBytes, flagByte]
  · rw [checkMacEnc_of_badFlags h, require_some]
  · rw [checkMacEnc_of_optsTooLong hflags h, require_some]
  · have hbad : ¬ (hasPort = false → port = 0 ∧ app = []) := fun hok =>
      h.elim (fun h => h (hok hport).1) (fun h => h (hok hport).2)
    rw [checkMacEnc_of_portlessApp hflags hopts hbad, require_some]
  · rw [checkMacEnc_of_encodedTooLong hflags hopts hportless h, require_some]

/-- Settles O22: the decoder fails in the two cases of `macDec_error`, and a decoded payload is answered with OK. -/
theorem macDecodeFailures : Obligations.MacDecodeFailures := by
  intro p s
  refine ⟨fun hlen => ?_, fun hlong => ?_⟩
  · rw [exec_macDec hlen]
    cases hdec : macDec p with
    | error e =>
      have herror := macDec_error.mp hdec
      rw [optsLength_eq] at herror
      refine iff_of_true rfl ?_
      obtain ⟨hshort, _⟩ | ⟨_, hopts, _⟩ := herror
      · exact .inl hshort
      · exact .inr hopts
    | ok m =>
      obtain ⟨_, _, hopts⟩ := macDec_ok_header hdec
      refine iff_of_false (fun h => ?_) (by omega)
      simp [Except.map] at h
  · change require (checkPayload p) _ = _
    rw [checkPayload_of_gt hlong, require_some]

/-- Settles O23: 18 bytes decode to their three fields; every other length fails. -/
theorem joinRequestDecodeAnswers : Obligations.JoinRequestDecodeAnswers := by
  refine ⟨fun a d n s => ?_, fun p s hlen hne => ?_, fun p s hlong => ?_⟩
  · change exec (.jreqDec (a.rev.toList ++ d.rev.toList ++ n.rev.toList)) s = _
    rw [exec_jreqDec (by simp), jreqDec_toList]
    simp [Except.map, joinRequestResults]
  · rw [exec_jreqDec hlen, jreqDec_error.mpr ⟨hne, rfl⟩]
    rfl
  · change require (checkPayload p) _ = _
    rw [checkPayload_of_gt hlong, require_some]

end Sys2Proof.Machine
end

section
/-! PROOFS. What the two ends of a session make of each other's frames: the counter after a wrap
(spec/45_frame_counter.md R204), the response (spec/46_protocol_engine.md R240, R241), and frames that the paired device
has made (R233 to R243, spec/70_reset_and_hazards.md R304). -/

namespace Sys2Proof.Machine

/-! R200, R201, R204: the candidates. -/

theorem toNat_ofNat_of_lt {w n : Nat} (h : n < 2 ^ w) : (BitVec.ofNat w n).toNat = n :=
  (BitVec.toNat_ofNat n w).trans (Nat.mod_eq_of_lt h)

/-- R200: the first two candidates as numbers. -/
theorem fcntCand_eq_cons (wire16 : U16) (stored : U32) (ra : Bool) :
    ∃ a b rest, fcntCand wire16 stored ra = a :: b :: rest ∧
      a.toNat = stored.toNat / 65536 * 65536 + wire16.toNat ∧
      b.toNat = (stored.toNat / 65536 + 1) % 65536 * 65536 + wire16.toNat := by
  obtain ⟨a, b, ha, hb, hcands, _⟩ := counterCandidatesAnswer wire16 stored ra State.reset
  cases ra with
  | true => exact ⟨a, b, [0], hcands, ha, hb⟩
  | false => exact ⟨a, b, [], hcands, ha, hb⟩

/-- R201: a counter of the same half that validates is the first candidate, and so is accepted. -/
theorem accept_of_same_half {v stored : U32} (hhalf : v.toNat / 65536 = stored.toNat / 65536) {wire16 : U16}
    (hwire : wire16.toNat = v.toNat % 65536) (ra : Bool) {key : Block} {dir : Dir} {addr : Bytes4} {msg : List Byte}
    {tag : Bytes4} (htag : micData key v dir addr msg = tag) :
    accept (fcntCand wire16 stored ra) key dir addr msg tag = some v := by
  obtain ⟨a, b, rest, hcands, ha, _⟩ := fcntCand_eq_cons wire16 stored ra
  have hv : a = v := BitVec.eq_of_toNat_eq (by omega)
  exact accept_eq_some_iff.mpr ⟨[], b :: rest, by rw [hcands, hv]; rfl, htag, nofun⟩

/-- Settles O28: the first candidate is the counter under the unchanged high word, the second the one sent. -/
theorem counterRollover : Obligations.CounterRollover := by
  intro key dir addr msg tag hi w lo ra hhi hlo hw stored v htag hother
  have hstored : stored.toNat = hi * 65536 + lo := toNat_ofNat_of_lt (by omega)
  have hv : v.toNat = (hi + 1) * 65536 + w := toNat_ofNat_of_lt (by omega)
  have hold : (BitVec.ofNat 32 (hi * 65536 + w)).toNat = hi * 65536 + w := toNat_ofNat_of_lt (by omega)
  have hwire : (BitVec.ofNat 16 w).toNat = w := toNat_ofNat_of_lt (by omega)
  obtain ⟨a, b, rest, hcands, ha, hb⟩ := fcntCand_eq_cons (BitVec.ofNat 16 w) stored ra
  have ha : a = BitVec.ofNat 32 (hi * 65536 + w) := BitVec.eq_of_toNat_eq (by omega)
  have hb : b = v := BitVec.eq_of_toNat_eq (by omega)
  refine ⟨accept_eq_some_iff.mpr ⟨[a], rest, by rw [hcands, hb]; rfl, htag.symm, ?_⟩, fcntClass_of_gt (by omega)⟩
  intro c hc
  rw [List.mem_singleton.mp hc, ha]
  exact hother.symm

/-! R240, R241: the response. -/

/-- R240: below 136 the clamped margin fits its byte. -/
theorem marginByte_toNat {rssi : U16} (h : rssi.toInt ≤ 135) :
    ((marginByte rssi).toNat : Int) = max 0 (rssi.toInt + 120) := by
  rw [marginByte, rssiValue, marginOffset, toNat_ofNat_of_lt (by omega)]
  omega

/-- Settles O40: the frame and the record inside it are read back from their encodings. -/
theorem responseFrameIsAuthentic : Obligations.ResponseFrameIsAuthentic := by
  intro record ack linkcheck rssi hrssi
  refine ⟨macEnc (responsePayload record ack linkcheck rssi), marginByte rssi, ?_⟩
  intro raw tag
  have hlen : (macEnc (responsePayload record ack linkcheck rssi)).length = if linkcheck then 10 else 7 := by
    cases linkcheck <;> rfl
  have hopts : (responsePayload record ack linkcheck rssi).opts.length ≤ 15 := by
    cases linkcheck <;> simp [responsePayload, linkCheckOption]
  refine ⟨responseFrame_length record ack linkcheck rssi, marginByte_toNat hrssi,
    frmDec_frmEnc .unconfirmedDown tag ?_ ?_, ?_⟩
  · rw [hlen]; split <;> decide
  · rw [hlen]; split <;> decide
  · rw [macDec_macEnc (fun _ => rfl) hopts, BitVec.ofNat_toNat]
    rfl

/-! R233 to R243: a data frame that is fresh. -/

/-- R243: what is delivered of a frame that is no replay. -/
def freshDelivery (deliverEn : Bool) (port : Option Byte) (plain : List Byte) : List Event :=
  match port with
  | some port => if port ≠ 0 ∧ deliverEn = true then [.deliver port plain plain.length] else []
  | none => []

theorem freshDelivery_of_enabled {port : Byte} (h : port ≠ 0) (plain : List Byte) :
    freshDelivery true (some port) plain = [.deliver port plain plain.length] :=
  if_pos ⟨h, rfl⟩

theorem deliverEvents_of_fresh (m : MacPayload) (s : State) {c : Conditions} (h : c.replay = false) :
    deliverEvents m (s, c) = freshDelivery s.deliverEn m.port m.app := by
  cases hport : m.port with
  | none => rw [deliverEvents_of_no_port hport]; rfl
  | some port => rw [deliverEvents_of_port hport s h]; rfl

/-- R231 to R243: the whole state that a fresh frame leaves. -/
theorem exec_data_of_fresh {t : FrameType} {payload : List Byte} {tag : Bytes4} {rssi : U16} {ra : Bool} {s : State}
    {m : MacPayload} {acc : U32} (hdata : t.isData = true) (hrssi : rssi.toInt ≤ 135) (hmax : payload.length ≤ 59)
    (hvalid : s.sessionValid = true) (hdec : macDec payload = .ok m) (haddr : m.addr = s.session.devAddr)
    (hacc : accept (fcntCand m.fcnt16 s.session.fcntUp ra) s.session.nwkSKey t.dir s.session.devAddr
      (t.toByte :: payload) tag = some acc)
    (hclass : fcntClass acc (storedAfterReset acc ra s.session) = .fresh) {plain : List Byte} {linkcheck : Bool}
    {record : Session} (hplain : plaintext m acc t.dir s.session = plain) (hlink : hasLinkCheck m plain = linkcheck)
    (hrecord : answeredSession t linkcheck { s.session with fcntUp := acc } = record) :
    exec (frameInstr t payload tag rssi ra) s =
      .next { s with
        session := record
        response := []
        events := s.events ++ answerEvents t linkcheck rssi record ++
          .save record :: freshDelivery s.deliverEn m.port plain } := by
  rw [exec_frameInstr, runFrame_frmEnc t tag ra s (macDec_ok_length hdec) hmax hrssi, dispatchFrame_of_isData hdata,
    dataPath_of_accepted (f := ⟨t, payload, tag⟩) hvalid hdec haddr hacc, freshness_forceReset_of_fresh hclass,
    Except.map, settle_ok, finishData_eq_update t m acc rssi (s.withFcntUp acc) _ hplain hlink hrecord,
    deliverEvents_of_fresh _ _ rfl, List.append_assoc]
  rfl

/-- R153, R237: a payload that was encrypted under the same operands is read as it was. -/
theorem plaintext_ctr (m : MacPayload) (acc : U32) (dir : Dir) (record : Session) :
    plaintext { m with app := ctr m.app acc record.devAddr record.appSKey dir } acc dir record = m.app := by
  unfold plaintext
  split
  · rename_i hnil
    have hlen := congrArg List.length hnil
    rw [ctr_length] at hlen
    exact (List.eq_nil_of_length_eq_zero hlen).symm
  · exact keystreamIsSelfInverse ..

/-- R238: without port 0 a link check is the first option byte. -/
theorem hasLinkCheck_of_port_ne {m : MacPayload} (h : m.port ≠ some 0x00) (plain : List Byte) :
    hasLinkCheck m plain = decide (m.opts.head? = some 0x02) := by
  simp only [hasLinkCheck, h, decide_false, Bool.false_and, Bool.or_false]

/-- Settles O41: the counter is the first candidate and fresh, the payload decrypts to what was encrypted; the answer is
due as `answerEvents` says. -/
theorem honestFrameIsAcceptedAndDelivered : Obligations.HonestFrameIsAcceptedAndDelivered := by
  intro t m v rssi ra s port hdata hrssi hvalid hdeliver haddr hport hport0 hopts hsize hhalf hgt sent payload tag
  have hdec : macDec payload = .ok sent := macDec_macEnc (fun hnone => by simp [sent, hport] at hnone) hopts
  have hmax : payload.length ≤ 59 := by
    rw [macEnc_length, MacPayload.encodedLength, show sent.port = some port from hport]
    simp only [sent, macHeaderBytes, ctr_length, Option.isSome_some, if_true]
    omega
  have hacc : accept (fcntCand sent.fcnt16 s.session.fcntUp ra) s.session.nwkSKey t.dir s.session.devAddr
      (t.toByte :: payload) tag = some v := accept_of_same_half hhalf (BitVec.toNat_ofNat ..) ra rfl
  have hclass : fcntClass v (storedAfterReset v ra s.session) = .fresh := by
    rw [storedAfterReset_of_not (by rintro ⟨rfl, _⟩; simp at hgt)]
    exact fcntClass_of_gt hgt
  have hlink : hasLinkCheck sent m.app = decide (m.opts.head? = some 0x02) :=
    hasLinkCheck_of_port_ne (m := sent) (fun h => hport0 (Option.some.inj (hport.symm.trans h))) m.app
  have hdelivered : freshDelivery s.deliverEn sent.port m.app = [.deliver port m.app m.app.length] := by
    rw [hdeliver, show sent.port = some port from hport, freshDelivery_of_enabled hport0]
  rw [exec_data_of_fresh hdata hrssi hmax hvalid hdec haddr hacc hclass (plaintext_ctr m v t.dir s.session) hlink rfl,
    hdelivered]
  refine ⟨_, _, rfl, ?_, rfl, rfl, fun hup => ?_, fun hup hcheck => ?_, fun hup hcheck => ?_⟩
  · rfl
  · subst hup
    simp [answeredSession, answerEvents]
  · simp [answeredSession, answerEvents, hup, hcheck]
  · simpa [answeredSession, answerEvents, hup] using hcheck

/-! R304: a counter-0 frame. -/

/-- R203, R304: while the stored counter is 0 such a frame is fresh, and what it writes is what stands there. -/
theorem exec_counterZero {payload : List Byte} {tag : Bytes4} {rssi : U16} {s : State} {m : MacPayload}
    (hrssi : rssi.toInt ≤ 135) (hmax : payload.length ≤ 59) (hvalid : s.sessionValid = true)
    (hup : s.session.fcntUp = 0) (hdec : macDec payload = .ok m) (haddr : m.addr = s.session.devAddr)
    (hwire : m.fcnt16 = 0) (hopts : m.opts = []) (hport : m.port ≠ some 0)
    (htag : micData s.session.nwkSKey 0 .up s.session.devAddr (0x40 :: payload) = tag) :
    exec (.typeUnconfirmedUp payload tag rssi false) s =
      .next { s with
        response := []
        events := s.events ++
          .save s.session :: freshDelivery s.deliverEn m.port (plaintext m 0 .up s.session) } := by
  have hacc : accept (fcntCand m.fcnt16 s.session.fcntUp false) s.session.nwkSKey .up s.session.devAddr
      (FrameType.unconfirmedUp.toByte :: payload) tag = some 0 :=
    accept_of_same_half (by rw [hup]) (by rw [hwire]; rfl) false htag
  have hclass : fcntClass 0 (storedAfterReset 0 false s.session) = .fresh := by
    rw [storedAfterReset_of_not (by simp), hup, fcntClass_zero]
  have hlink : hasLinkCheck m (plaintext m 0 .up s.session) = false := by
    rw [hasLinkCheck_of_port_ne hport, hopts]
    rfl
  have hrecord : answeredSession .unconfirmedUp false { s.session with fcntUp := 0 } = s.session := by
    rw [← hup]
    rfl
  have hexec := exec_data_of_fresh (t := .unconfirmedUp) rfl hrssi hmax hvalid hdec haddr hacc hclass rfl hlink hrecord
  have hsilent : answerEvents .unconfirmedUp false rssi s.session = [] := rfl
  rw [hsilent, List.append_nil] at hexec
  exact hexec

/-- Settles O43: what the first reception leaves meets the same conditions, with the same session. -/
theorem counterZeroFrameIsAcceptedAgain : Obligations.CounterZeroFrameIsAcceptedAgain := by
  intro payload tag rssi s m hrssi hmax hvalid hup hdec haddr hwire hopts hport htag
  refine ⟨_, _, exec_counterZero hrssi hmax hvalid hup hdec haddr hwire hopts hport htag,
    exec_counterZero hrssi hmax hvalid hup hdec haddr hwire hopts hport htag, rfl, rfl,
    fun hdeliver port hsome => ⟨plaintext m 0 .up s.session, ?_⟩⟩
  have hport0 : port ≠ 0 := fun h => hport (h ▸ hsome)
  simp only [hdeliver, hsome, freshDelivery_of_enabled hport0]

end Sys2Proof.Machine
end
